-- ==== Sys2Proof/Word.lean ====
section
/-! DEFINITION. The words of the ffp protocol engine: bytes, the 16-bit and 32-bit fields of a frame, the SWD request
nibble, and a frame as a sequence of bytes (rule R8). -/

namespace Sys2Proof

/-- One byte of a frame, and one SPI unit (R8). -/
abbrev Byte := BitVec 8

/-- A 16-bit frame field (R8). -/
abbrev Half := BitVec 16

/-- A 32-bit frame field, and one SWD data word (R8). -/
abbrev Word := BitVec 32

/-- The SWD request nibble: bit 0 APnDP, bit 1 RnW, bits 3 to 2 the address A[3:2] (R93, R102). -/
abbrev Nibble := BitVec 4

/-- A bridge or DAP frame, request or response: a sequence of bytes (R8). -/
abbrev Frame := List Byte

end Sys2Proof
end

