-- ==== Sys2Proof/Syntax.lean ====
section
/-! DEFINITION. The instructions of the block, one constructor for each row of the opcode table: seven bridge frames
(R82), fifteen DAP frames (R90) and four SWD request packets (R102), and the two places an encoding stands. -/

namespace Sys2Proof

/-- The three channels (R13): CH0 the SPI bridge, CH1 DAP-v1, CH2 DAP-v2. -/
inductive Chan where
  | ch0 | ch1 | ch2
  deriving DecidableEq, Repr, Inhabited

/-- The two DAP channels, written d in the spec: `v1` is CH1 and `v2` is CH2 (R13). -/
inductive DapCh where
  | v1 | v2
  deriving DecidableEq, Repr, Inhabited

/-- One transfer request of a DAP_Transfer frame (R229): the request byte as received, with the ignored bits in it,
and the 32-bit word that follows it where R229 says one does. -/
structure XferReq where
  req : Byte
  word : Option Word
  deriving DecidableEq, Repr, Inhabited

/-- An instruction. A DAP command carries the channel that delivered its frame (R120: a frame is tagged with its
channel), and an SWD packet the DAP channel whose interpreter asks for it. Operands are the frame's own fields,
ignored ones among them, so that no byte of a frame is lost. -/
inductive Instr where
  /-- BEGIN, R161 -/
  | spiBegin
  /-- EXCHANGE, R162: the data bytes; the count field is their number -/
  | spiExchange (data : List Byte)
  /-- END, R163 -/
  | spiEnd
  /-- SET_GPIO, R164 -/
  | setGpio (pin level : Byte)
  /-- GET_GPIO, R165 -/
  | getGpio (pin : Byte)
  /-- SET_CLOCK, R166 -/
  | setClock (hz : Word)
  /-- BOOTLOAD, R167 -/
  | bootload
  /-- DAP_Info, R224 -/
  | dapInfo (d : DapCh) (id : Byte)
  /-- DAP_HostStatus, R225 -/
  | dapHostStatus (d : DapCh) (type status : Byte)
  /-- DAP_Connect, R226 -/
  | dapConnect (d : DapCh) (port : Byte)
  /-- DAP_Disconnect, R227 -/
  | dapDisconnect (d : DapCh)
  /-- DAP_TransferConfigure, R228 -/
  | dapTransferConfigure (d : DapCh) (idle : Byte) (waitRetry matchRetry : Half)
  /-- DAP_Transfer, R231; the frame's count byte is the number of requests -/
  | dapTransfer (d : DapCh) (idx : Byte) (reqs : List XferReq)
  /-- DAP_TransferBlock, R245; the data words are empty for a read -/
  | dapTransferBlock (d : DapCh) (idx : Byte) (count : Half) (req : Byte) (data : List Word)
  /-- DAP_TransferAbort, R262 -/
  | dapTransferAbort (d : DapCh)
  /-- DAP_WriteABORT, R264 -/
  | dapWriteAbort (d : DapCh) (idx : Byte) (abort : Word)
  /-- DAP_Delay, R265 -/
  | dapDelay (d : DapCh) (us : Half)
  /-- DAP_ResetTarget, R266 -/
  | dapResetTarget (d : DapCh)
  /-- DAP_SWJ_Pins, R267 -/
  | dapSwjPins (d : DapCh) (output select : Byte) (wait : Word)
  /-- DAP_SWJ_Clock, R269 -/
  | dapSwjClock (d : DapCh) (hz : Word)
  /-- DAP_SWJ_Sequence, R271: the count byte (0 stands for 256) and its data bytes -/
  | dapSwjSequence (d : DapCh) (count : Byte) (data : List Byte)
  /-- DAP_SWD_Configure, R270 -/
  | dapSwdConfigure (d : DapCh) (config : Byte)
  /-- an SWD packet that writes DP register A[3:2], R197 -/
  | swdDpWrite (d : DapCh) (a : BitVec 2) (w : Word)
  /-- an SWD packet that writes AP register A[3:2], R197 -/
  | swdApWrite (d : DapCh) (a : BitVec 2) (w : Word)
  /-- an SWD packet that reads DP register A[3:2], R197 -/
  | swdDpRead (d : DapCh) (a : BitVec 2)
  /-- an SWD packet that reads AP register A[3:2], R197 -/
  | swdApRead (d : DapCh) (a : BitVec 2)
  deriving DecidableEq, Repr

/-- Where an encoding stands: a frame in a channel's receive slot (R22), or a request packet, with the word a write
would send, at the port of the SWD engine for channel `d` (R197). -/
inductive Encoded where
  | frame (c : Chan) (bytes : Frame)
  | packet (d : DapCh) (bits : Byte) (wdata : Word)
  deriving DecidableEq, Repr

end Sys2Proof
end

