-- ==== Sys2Proof/Config.lean ====
section
/-! DEFINITION. What an implementation fixes (the parameters of R7, held by State as a constant field), what the
environment may do (the moves of R291) and what is drawn from outside (R11), with the free values that stand for
draws a state does not list. -/

namespace Sys2Proof

/-- The clock dividers of R8, each a power of two from 2 to 256. -/
inductive Divider where
  | d2 | d4 | d8 | d16 | d32 | d64 | d128 | d256
  deriving DecidableEq, Repr, Inhabited

/-- The implementation parameters of R7. The strings are lists of bytes. -/
structure Params where
  /-- F_REF, in Hz -/
  fRef : Nat
  /-- BRIDGE_MAX_FRAME, bytes -/
  bridgeMaxFrame : Nat
  /-- DAP_PKT_SIZE, bytes -/
  dapPktSize : Nat
  /-- T_LEASE_WAIT, microseconds: recorded when a lease wait ends by timeout (R12); no rule depends on it (R128: the
  timeout is a draw) -/
  tLeaseWait : Nat
  /-- T_CSS, half SCK periods -/
  tCss : Nat
  /-- T_CSH, half SCK periods -/
  tCsh : Nat
  /-- T_CSD, half SCK periods -/
  tCsd : Nat
  /-- T_RST_PULSE, microseconds -/
  tRstPulse : Nat
  infoVendor : Frame
  infoProduct : Frame
  infoSerial : Frame
  infoFwVersion : Frame
  dapVersion : Frame
  deriving DecidableEq, Repr

/-- The suggested values of R7; the version string is "2.0.0" (DESIGN CHOICE for the reset state, log entry 1). -/
def Params.suggested : Params where
  fRef := 48000000
  bridgeMaxFrame := 64
  dapPktSize := 64
  tLeaseWait := 100000
  tCss := 1
  tCsh := 1
  tCsd := 2
  tRstPulse := 1000
  infoVendor := []
  infoProduct := []
  infoSerial := []
  infoFwVersion := []
  dapVersion := [0x32, 0x2E, 0x30, 0x2E, 0x30]

/-- A string is ASCII: every byte is below 128. -/
def isAscii (s : Frame) : Bool := s.all fun b => !b.getLsbD 7

/-- The constraints of R7. -/
abbrev Params.ok (p : Params) : Prop :=
  2 ≤ p.fRef ∧ 5 ≤ p.bridgeMaxFrame ∧ 64 ≤ p.dapPktSize ∧ p.dapPktSize ≤ 65535 ∧ 1 ≤ p.tCss ∧ 1 ≤ p.tCsh ∧
    2 ≤ p.tCsd ∧ 1 ≤ p.tRstPulse ∧
    (∀ s ∈ [p.infoVendor, p.infoProduct, p.infoSerial, p.infoFwVersion],
      isAscii s = true ∧ s.length + 3 ≤ p.dapPktSize) ∧ isAscii p.dapVersion = true

/-- The input levels that are drawn (R11, R34): MISO, SWDIO while sampled or not driven, CDONE, and SCK while it is
not driven. -/
inductive BitSource where
  | miso | swdio | cdone | sck
  deriving DecidableEq, Repr, Inhabited

/-- One move of a run: what the outside world does (the table of R291), or which agents of the block step in this
cycle (R20: any schedule). -/
inductive Move where
  /-- the transport of `c` delivers a frame (R120) -/
  | arrive (c : Chan) (f : Frame)
  /-- the transport of `c` attaches (R132) -/
  | attach (c : Chan)
  /-- the transport of `c` detaches (R131); a frame arriving on `c` in the same step comes after it (R286) -/
  | detach (c : Chan) (arriving : Option Frame)
  /-- the lease wait of `c` ends by timeout (R128) -/
  | timeout (c : Chan)
  /-- the agents of `cs` step in the same cycle (R121, R127); of a command that runs in this move, the last `hold` bus
  events stay ahead, for the Pin/Bus Controller to execute in later moves (log entry 7) -/
  | run (cs : List Chan) (hold : Nat)
  /-- the Pin/Bus Controller executes the next `n` bus events of the command that holds the bus (R20, log entry 7) -/
  | bus (n : Nat)
  /-- the SWD engine takes the packet at its port (log entry 9) -/
  | engine
  /-- power-on reset, or the return from the update mode (R310, R311) -/
  | reset
  deriving DecidableEq, Repr, Inhabited

/-- FREE VALUE: the level of an input that the state's draw list does not give, at the n-th use of a free value
(R11, R198; log entry 3). -/
opaque Config.freeBit : BitSource → Nat → Bool

/-- FREE VALUE: the elapsed time of a DAP_SWJ_Pins wait that the state's draw list does not give (R268; log entry 3). -/
opaque Config.freeElapsed : Nat → Nat

/-- FREE VALUE: the next move when the state's list of moves has ended (R20, R291; log entry 4). -/
opaque Config.freeMove : Nat → Move

end Sys2Proof
end

