-- ==== Sys2Proof/Decode.lean ====
section
/-! DEFINITION. The decoder and the encoder: bridge frames (R80 to R87), DAP frames (R88 to R101) and SWD request
packets (R102), with the dispatch of R110. The decoder is total; what it does not accept it rejects by name. -/

namespace Sys2Proof

/-! ## Multi-byte fields (R65: little-endian) -/

/-- `u16(F, i)` of R10, from its two bytes, the low one first. -/
def u16 (b0 b1 : Byte) : Half := (b1 ++ b0 : BitVec 16)

/-- `u32(F, i)` of R10, from its four bytes, the low one first. -/
def u32 (b0 b1 b2 b3 : Byte) : Word := (b3 ++ b2 ++ b1 ++ b0 : BitVec 32)

/-- `emit16` of R10: the two bytes, low byte first. -/
def le16 (v : Half) : List Byte := [v.extractLsb' 0 8, v.extractLsb' 8 8]

/-- `emit32` of R10: the four bytes, low byte first. -/
def le32 (v : Word) : List Byte :=
  [v.extractLsb' 0 8, v.extractLsb' 8 8, v.extractLsb' 16 8, v.extractLsb' 24 8]

/-! ## The DAP_Info table (R96) -/

/-- A string answer of R96: L counts the terminating zero; the empty string is L = 0. -/
def infoString (s : Frame) : List Byte :=
  if s.isEmpty then [0x00] else BitVec.ofNat 8 (s.length + 1) :: s ++ [0x00]

/-- `InfoPayload(id)`: the length byte and the bytes it counts (R96, R224). -/
def infoPayload (p : Params) (id : Byte) : List Byte :=
  if id = 0x01 then infoString p.infoVendor
  else if id = 0x02 then infoString p.infoProduct
  else if id = 0x03 then infoString p.infoSerial
  else if id = 0x04 then infoString p.dapVersion
  else if id = 0x09 then infoString p.infoFwVersion
  else if id = 0xF0 then [0x01, 0x01]
  else if id = 0xFE then [0x01, 0x01]
  else if id = 0xFF then 0x02 :: le16 (BitVec.ofNat 16 p.dapPktSize)
  else [0x00]

/-! ## Transfer requests (R93, R229, R230) -/

/-- RnW, bit 1 of a request byte (R93). -/
def reqIsRead (req : Byte) : Bool := req.getLsbD 1

/-- A 32-bit word follows a write request and a value-match read, and no other (R229). -/
def reqNeedsWord (req : Byte) : Bool := !req.getLsbD 1 || req.getLsbD 4

/-- A plain read, whose 32-bit value the response carries (R230). -/
def reqIsPlainRead (req : Byte) : Bool := req.getLsbD 1 && !req.getLsbD 4

/-- The scan of R230 over the bytes after the count: `n` requests, or none where the frame is too short for them.
What stands after the last request is ignored (R89). -/
def parseReqs : Nat → List Byte → Option (List XferReq)
  | 0, _ => some []
  | _ + 1, [] => none
  | n + 1, req :: rest =>
    if reqNeedsWord req then
      match rest with
      | b0 :: b1 :: b2 :: b3 :: rest => (parseReqs n rest).map (⟨req, some (u32 b0 b1 b2 b3)⟩ :: ·)
      | _ => none
    else (parseReqs n rest).map (⟨req, none⟩ :: ·)

/-- The `n` data words of a DAP_TransferBlock write (R245), or none where the frame is too short for them. -/
def parseWords : Nat → List Byte → Option (List Word)
  | 0, _ => some []
  | n + 1, b0 :: b1 :: b2 :: b3 :: rest => (parseWords n rest).map (u32 b0 b1 b2 b3 :: ·)
  | _ + 1, _ => none

/-- The number of bits of a DAP_SWJ_Sequence: a count byte of 0 means 256 (R101). -/
def seqBitCount (count : Byte) : Nat := if count = 0 then 256 else count.toNat

/-- The number of its data bytes, ceil(n/8) (R101). -/
def seqByteCount (count : Byte) : Nat := (seqBitCount count + 7) / 8

/-- The largest response a DAP command can give (R276); 0 where the rule gives the row no response of its own. -/
def maxResponseLen (p : Params) : Instr → Nat
  | .dapInfo _ id => 1 + (infoPayload p id).length
  | .dapTransfer _ _ reqs => 3 + 4 * reqs.countP fun q => reqIsPlainRead q.req
  | .dapTransferBlock _ _ count req _ => if reqIsRead req then 4 + 4 * count.toNat else 4
  | .dapResetTarget _ => 3
  | .dapHostStatus _ _ _ | .dapConnect _ _ | .dapDisconnect _ | .dapTransferConfigure _ _ _ _ | .dapWriteAbort _ _ _
  | .dapDelay _ _ | .dapSwjPins _ _ _ _ | .dapSwjClock _ _ | .dapSwjSequence _ _ _ | .dapSwdConfigure _ _ => 2
  | .dapTransferAbort _ => 0
  | .spiBegin | .spiExchange _ | .spiEnd | .setGpio _ _ | .getGpio _ | .setClock _ | .bootload
  | .swdDpWrite _ _ _ | .swdApWrite _ _ _ | .swdDpRead _ _ | .swdApRead _ _ => 0

/-! ## The decoder -/

/-- Why an encoding is rejected. A rejected bridge frame is answered `01` (R81) and a rejected DAP frame `FF` (R89,
R92); bits that are none of the sixteen packets of R102 have no meaning in the spec. -/
inductive DecodeError where
  /-- the empty frame (R81, R89) -/
  | emptyFrame
  /-- a bridge opcode that R84 calls undefined -/
  | undefinedOpcode
  /-- a bridge frame whose length is not the one its opcode defines (R81) -/
  | wrongLength
  /-- a bridge frame longer than BRIDGE_MAX_FRAME (R81) -/
  | frameTooLong
  /-- a DAP command ID outside the supported subset (R92) -/
  | invalidId
  /-- a DAP frame shorter than its fields require (R89, R230) -/
  | tooShort
  /-- a DAP frame whose longest response exceeds DAP_PKT_SIZE (R89, R276) -/
  | responseTooLarge
  /-- bits that are no packet of R102: a wrong start, stop, park or parity bit -/
  | notAPacket
  deriving DecidableEq, Repr

/-- `required_len(CH0, F)` of R107; none where the opcode is undefined or the count field is not there. -/
def requiredLenBridge : Frame → Option Nat
  | [] => none
  | op :: rest =>
    if op = 0x01 ∨ op = 0x03 ∨ op = 0x07 then some 1
    else if op = 0x04 then some 3
    else if op = 0x05 then some 2
    else if op = 0x06 then some 5
    else if op = 0x02 then
      match rest with
      | nL :: nH :: _ => some (3 + (u16 nL nH).toNat)
      | _ => none
    else none

/-- The fields of a bridge frame of the required length (R82). -/
def bridgeFields : Frame → Except DecodeError Instr
  | [0x01] => .ok .spiBegin
  | 0x02 :: _ :: _ :: data => .ok (.spiExchange data)
  | [0x03] => .ok .spiEnd
  | [0x04, pin, level] => .ok (.setGpio pin level)
  | [0x05, pin] => .ok (.getGpio pin)
  | [0x06, h0, h1, h2, h3] => .ok (.setClock (u32 h0 h1 h2 h3))
  | [0x07] => .ok .bootload
  | _ => .error .wrongLength

/-- The bridge decoder: R81 and the first line of R110. -/
def decodeBridge (p : Params) (f : Frame) : Except DecodeError Instr :=
  match requiredLenBridge f with
  | none =>
    match f with
    | [] => .error .emptyFrame
    | op :: _ => if op = 0x02 then .error .wrongLength else .error .undefinedOpcode
  | some n =>
    if f.length ≠ n then .error .wrongLength
    else if p.bridgeMaxFrame < f.length then .error .frameTooLong
    else bridgeFields f

/-- The fields of a DAP frame (R90, R229, R245, R101); bytes after them are ignored (R89). -/
def dapFields (d : DapCh) : Frame → Except DecodeError Instr
  | [] => .error .emptyFrame
  | id :: args =>
    if id = 0x00 then
      match args with
      | item :: _ => .ok (.dapInfo d item)
      | _ => .error .tooShort
    else if id = 0x01 then
      match args with
      | type :: status :: _ => .ok (.dapHostStatus d type status)
      | _ => .error .tooShort
    else if id = 0x02 then
      match args with
      | port :: _ => .ok (.dapConnect d port)
      | _ => .error .tooShort
    else if id = 0x03 then .ok (.dapDisconnect d)
    else if id = 0x04 then
      match args with
      | idle :: w0 :: w1 :: m0 :: m1 :: _ => .ok (.dapTransferConfigure d idle (u16 w0 w1) (u16 m0 m1))
      | _ => .error .tooShort
    else if id = 0x05 then
      match args with
      | idx :: count :: rest =>
        match parseReqs count.toNat rest with
        | some reqs => .ok (.dapTransfer d idx reqs)
        | none => .error .tooShort
      | _ => .error .tooShort
    else if id = 0x06 then
      match args with
      | idx :: c0 :: c1 :: req :: rest =>
        if reqIsRead req then .ok (.dapTransferBlock d idx (u16 c0 c1) req [])
        else
          match parseWords (u16 c0 c1).toNat rest with
          | some data => .ok (.dapTransferBlock d idx (u16 c0 c1) req data)
          | none => .error .tooShort
      | _ => .error .tooShort
    else if id = 0x07 then .ok (.dapTransferAbort d)
    else if id = 0x08 then
      match args with
      | idx :: a0 :: a1 :: a2 :: a3 :: _ => .ok (.dapWriteAbort d idx (u32 a0 a1 a2 a3))
      | _ => .error .tooShort
    else if id = 0x09 then
      match args with
      | t0 :: t1 :: _ => .ok (.dapDelay d (u16 t0 t1))
      | _ => .error .tooShort
    else if id = 0x0A then .ok (.dapResetTarget d)
    else if id = 0x10 then
      match args with
      | output :: select :: w0 :: w1 :: w2 :: w3 :: _ => .ok (.dapSwjPins d output select (u32 w0 w1 w2 w3))
      | _ => .error .tooShort
    else if id = 0x11 then
      match args with
      | h0 :: h1 :: h2 :: h3 :: _ => .ok (.dapSwjClock d (u32 h0 h1 h2 h3))
      | _ => .error .tooShort
    else if id = 0x12 then
      match args with
      | count :: data =>
        if data.length < seqByteCount count then .error .tooShort
        else .ok (.dapSwjSequence d count (data.take (seqByteCount count)))
      | _ => .error .tooShort
    else if id = 0x13 then
      match args with
      | config :: _ => .ok (.dapSwdConfigure d config)
      | _ => .error .tooShort
    else .error .invalidId

/-- The DAP decoder: R89 and the second part of R110. -/
def decodeDap (p : Params) (d : DapCh) (f : Frame) : Except DecodeError Instr :=
  match dapFields d f with
  | .error e => .error e
  | .ok i => if p.dapPktSize < maxResponseLen p i then .error .responseTooLarge else .ok i

/-- The request parity of R102 and R195. -/
def requestParity (r : Nibble) : Bool := r.getLsbD 0 ^^ r.getLsbD 1 ^^ r.getLsbD 2 ^^ r.getLsbD 3

/-- The packet byte of R102, bit k being cycle k: start, the nibble, parity, stop, park. -/
def packetByte (r : Nibble) : Byte := (1#1 ++ 0#1 ++ BitVec.ofBool (requestParity r) ++ r ++ 1#1 : BitVec 8)

/-- The request nibble: bit 0 APnDP, bit 1 RnW, bits 3 to 2 the address (R93, R102). -/
def swdNibble (ap rnw : Bool) (a : BitVec 2) : Nibble := (a ++ BitVec.ofBool rnw ++ BitVec.ofBool ap : BitVec 4)

/-- The packet instruction a request nibble names; `w` is the word a write sends. -/
def packetInstr (d : DapCh) (r : Nibble) (w : Word) : Instr :=
  match r.getLsbD 0, r.getLsbD 1 with
  | false, false => .swdDpWrite d (r.extractLsb' 2 2) w
  | true, false => .swdApWrite d (r.extractLsb' 2 2) w
  | false, true => .swdDpRead d (r.extractLsb' 2 2)
  | true, true => .swdApRead d (r.extractLsb' 2 2)

/-- The packet decoder: the sixteen packets of R102 and no other bits. -/
def decodePacket (d : DapCh) (bits : Byte) (w : Word) : Except DecodeError Instr :=
  if bits = packetByte (bits.extractLsb' 1 4) then .ok (packetInstr d (bits.extractLsb' 1 4) w)
  else .error .notAPacket

/-- The decode dispatch of R110: the channel alone chooses the map (R107). -/
def decode (p : Params) : Encoded → Except DecodeError Instr
  | .frame .ch0 f => decodeBridge p f
  | .frame .ch1 f => decodeDap p .v1 f
  | .frame .ch2 f => decodeDap p .v2 f
  | .packet d bits w => decodePacket d bits w

/-! ## The encoder -/

/-- The channel of a DAP channel (R13). -/
def DapCh.chan : DapCh → Chan
  | .v1 => .ch1
  | .v2 => .ch2

/-- The bytes of one transfer request (R229). -/
def encodeReq (q : XferReq) : List Byte :=
  match q.word with
  | none => [q.req]
  | some w => q.req :: le32 w

/-- A bridge frame stands on CH0 (R23). -/
def bridgeFrame (f : Frame) : Encoded := .frame .ch0 f

/-- A DAP frame stands on the transport of its channel (R23). -/
def dapFrame (d : DapCh) (f : Frame) : Encoded := .frame d.chan f

/-- The encoding of an instruction, by the tables of R82, R90 and R102. A DAP frame is written without padding. -/
def encode : Instr → Encoded
  | .spiBegin => bridgeFrame [0x01]
  | .spiExchange data => bridgeFrame (0x02 :: le16 (BitVec.ofNat 16 data.length) ++ data)
  | .spiEnd => bridgeFrame [0x03]
  | .setGpio pin level => bridgeFrame [0x04, pin, level]
  | .getGpio pin => bridgeFrame [0x05, pin]
  | .setClock hz => bridgeFrame (0x06 :: le32 hz)
  | .bootload => bridgeFrame [0x07]
  | .dapInfo d id => dapFrame d [0x00, id]
  | .dapHostStatus d type status => dapFrame d [0x01, type, status]
  | .dapConnect d port => dapFrame d [0x02, port]
  | .dapDisconnect d => dapFrame d [0x03]
  | .dapTransferConfigure d idle w m => dapFrame d (0x04 :: idle :: le16 w ++ le16 m)
  | .dapTransfer d idx reqs =>
    dapFrame d (0x05 :: idx :: BitVec.ofNat 8 reqs.length :: reqs.flatMap encodeReq)
  | .dapTransferBlock d idx count req data => dapFrame d (0x06 :: idx :: le16 count ++ req :: data.flatMap le32)
  | .dapTransferAbort d => dapFrame d [0x07]
  | .dapWriteAbort d idx a => dapFrame d (0x08 :: idx :: le32 a)
  | .dapDelay d us => dapFrame d (0x09 :: le16 us)
  | .dapResetTarget d => dapFrame d [0x0A]
  | .dapSwjPins d output select wait => dapFrame d (0x10 :: output :: select :: le32 wait)
  | .dapSwjClock d hz => dapFrame d (0x11 :: le32 hz)
  | .dapSwjSequence d count data => dapFrame d (0x12 :: count :: data)
  | .dapSwdConfigure d config => dapFrame d [0x13, config]
  | .swdDpWrite d a w => .packet d (packetByte (swdNibble false false a)) w
  | .swdApWrite d a w => .packet d (packetByte (swdNibble true false a)) w
  | .swdDpRead d a => .packet d (packetByte (swdNibble false true a)) 0
  | .swdApRead d a => .packet d (packetByte (swdNibble true true a)) 0

/-! ## The words of the opcode table -/

/-- The bytes of a table word: bit 0 is the least significant bit of the first byte. -/
def tableBytes (nbits w : Nat) : List Byte := (List.range (nbits / 8)).map fun k => BitVec.ofNat 8 (w >>> (8 * k))

/-- `f` followed by zero bytes up to length `n`. -/
def padTo (n : Nat) (f : Frame) : Frame := f ++ List.replicate (n - f.length) 0

/-- A DAP command ID of R90 that is no bridge opcode. -/
def isDapOnlyId (op : Byte) : Bool :=
  op = 0x00 || op = 0x08 || op = 0x09 || op = 0x0A || op = 0x10 || op = 0x11 || op = 0x12 || op = 0x13

/-- Where a table word stands. The table's bridge rows 0x01 to 0x07 and its DAP rows of the same first byte are the
same word, for the channel alone tells them apart (R107): the word is laid out as the bridge frame (log entry 10).
A bridge frame is padded with zero bytes to its length, a DAP frame to 64 bytes (R89: what follows its fields is
ignored), and any other word is a packet, whose parity bit, which the table's mask leaves open, is the one R102
gives. -/
def tableLayout (nbits w : Nat) : Encoded :=
  let f := tableBytes nbits w
  match f with
  | [] => .frame .ch0 []
  | op :: _ =>
    if 1 ≤ op.toNat ∧ op.toNat ≤ 7 then
      .frame .ch0 (padTo ((requiredLenBridge (padTo 3 f)).getD 1) f)
    else if isDapOnlyId op then .frame .ch1 (padTo 64 f)
    else .packet .v1 ((op &&& 0xDF#8) ||| (if requestParity (op.extractLsb' 1 4) then 0x20#8 else 0#8)) 0

/-- The instruction the decoder reads from a word of the opcode table, under the suggested parameters. -/
def decodeTableWord (nbits w : Nat) : Option Instr := (decode Params.suggested (tableLayout nbits w)).toOption

end Sys2Proof
end

