-- ==== Sys2Proof/Machine/Operands.lean ====
section
/-! DEFINITION. Operand forms: bit lists and words, clock rates (R150), bridge pins (R85), the fields of a transfer
request (R93, R94), and the bits of a raw sequence (R101). -/

namespace Sys2Proof.Machine

/-! ## Bits on the wire (R67: least significant bit first) -/

/-- The bits of a word, bit 0 first. -/
def bitsOf {n : Nat} (v : BitVec n) : List Bool := (List.range n).map v.getLsbD

/-- The word whose bit 0 is the first bit of the list. -/
def ofBits (n : Nat) : List Bool → BitVec n
  | [] => 0
  | b :: bs => (ofBits n bs <<< 1) ||| (if b then 1 else 0)

/-- The bits of an SPI byte in wire order, bit 7 first (R66). -/
def spiWireBits (tx : Byte) : List Bool := (bitsOf tx).reverse

/-- The byte whose bits arrive bit 7 first (R66, R153). -/
def ofSpiWireBits (bs : List Bool) : Byte := ofBits 8 bs.reverse

/-- A level byte, 0x00 or 0x01 (R85). -/
def levelByte (b : Bool) : Byte := if b then 0x01 else 0x00

/-! ## Clock rates -/

/-- The value of a divider (R8). -/
def dividerValue : Divider → Nat
  | .d2 => 2 | .d4 => 4 | .d8 => 8 | .d16 => 16 | .d32 => 32 | .d64 => 64 | .d128 => 128 | .d256 => 256

/-- The dividers in rising order (R150). -/
def dividers : List Divider := [.d2, .d4, .d8, .d16, .d32, .d64, .d128, .d256]

/-- `RateSel(hz)` of R150: the least divider d with F_REF <= hz * d, or 256. -/
def rateSel (p : Params) (hz : Nat) : Divider :=
  (dividers.find? fun d => p.fRef ≤ hz * dividerValue d).getD .d256

/-- `ActualRate(d)` of R150, in Hz. -/
def actualRate (p : Params) (d : Divider) : Nat := p.fRef / dividerValue d

/-- DIV_RESET of R150. -/
def divReset (p : Params) : Divider := rateSel p 1000000

/-! ## Pins -/

/-- The physical pins (R27). -/
inductive Pin where
  | csN | resetN | powerEn | sck | mosi | miso | cdone
  deriving DecidableEq, Repr

/-- The pins that SetPin drives (R156). -/
inductive OutPin where
  | csN | resetN | powerEn
  deriving DecidableEq, Repr

/-- An output as a pin. -/
def outPin : OutPin → Pin
  | .csN => .csN
  | .resetN => .resetN
  | .powerEn => .powerEn

/-- What a bridge pin number names (R85): an output, the input CDONE, or nothing. -/
inductive BridgePin where
  | output (p : OutPin)
  | cdoneInput
  | unknown
  deriving DecidableEq, Repr

/-- The bridge pin numbers of R85. -/
def bridgePin (b : Byte) : BridgePin :=
  if b = 0x00 then .output .csN
  else if b = 0x01 then .output .resetN
  else if b = 0x02 then .output .powerEn
  else if b = 0x03 then .cdoneInput
  else .unknown

/-- The level a level byte names (R85); none for a value other than 0 and 1. -/
def bridgeLevel (b : Byte) : Option Bool :=
  if b = 0x00 then some false else if b = 0x01 then some true else none

/-! ## Transfer requests -/

/-- `req[3:0]`, the request nibble (R93). -/
def reqNibble (req : Byte) : Nibble := req.extractLsb' 0 4

/-- APnDP, bit 0 (R93). -/
def reqIsAp (req : Byte) : Bool := req.getLsbD 0

/-- MATCH_VALUE, bit 4 (R93): it counts on reads only. -/
def reqIsMatch (req : Byte) : Bool := req.getLsbD 4

/-- MATCH_MASK, bit 5 (R93): it counts on writes only. -/
def reqIsMask (req : Byte) : Bool := req.getLsbD 5

/-- The word of a request; a well-formed request that uses it has one (R229). -/
def reqWord (q : XferReq) : Word := q.word.getD 0

/-- The request nibble of a DP read of 0xC, RDBUFF (R62, R232). -/
def rdbuff : Nibble := 0xE

/-- The request nibble of a DP write of 0x0, ABORT (R62, R264). -/
def abortReg : Nibble := 0x0

/-! ## Raw sequences -/

/-- The bits of a DAP_SWJ_Sequence: bit i is bit i mod 8 of data byte i div 8 (R101). -/
def seqBits (count : Byte) (data : List Byte) : List Bool :=
  (List.range (seqBitCount count)).map fun i => (data.getD (i / 8) 0).getLsbD (i % 8)

/-- The cap on the wait of DAP_SWJ_Pins, in microseconds (R268). -/
def pinWaitCap : Nat := 3000000

/-- The turnaround a configuration byte selects, `config[1:0] + 1` (R98). -/
def configTurnaround (config : Byte) : Nat := (config.extractLsb' 0 2).toNat + 1

/-- The data-phase bit of a configuration byte (R98). -/
def configDataPhase (config : Byte) : Bool := config.getLsbD 2

/-! ## Channels -/

/-- The round-robin order that starts from the channel after `last` (R127). -/
def roundRobin : Chan → List Chan
  | .ch0 => [.ch1, .ch2, .ch0]
  | .ch1 => [.ch2, .ch0, .ch1]
  | .ch2 => [.ch0, .ch1, .ch2]

/-- The DAP channel of a channel; none for the bridge (R13). -/
def dapOf : Chan → Option DapCh
  | .ch0 => none
  | .ch1 => some .v1
  | .ch2 => some .v2

end Sys2Proof.Machine
end

