-- ==== Sys2Proof/Machine/Flags.lean ====
section
/-! DEFINITION. Parity and status values. The block has no condition-code register (R48): what it reports stands in its
responses, as the bridge status byte (R83), the DAP status byte (R91) and the transfer response byte (R95). -/

namespace Sys2Proof.Machine

/-- `xor32` of R9 and R195: the exclusive-or of the 32 bits, the even-parity bit. -/
def xor32 (v : Word) : Bool := (bitsOf v).foldl (· ^^ ·) false

/-- The bridge error statuses (R83). -/
inductive BridgeError where
  | protocolError | resourceBusy | noActiveTransaction | sequencingError
  deriving DecidableEq, Repr

/-- Bridge status OK (R83). -/
def bridgeOk : Byte := 0x00

/-- The status byte of a bridge error (R83). -/
def bridgeStatus : BridgeError → Byte
  | .protocolError => 0x01
  | .resourceBusy => 0x02
  | .noActiveTransaction => 0x03
  | .sequencingError => 0x04

/-- DAP_OK (R91). -/
def dapOk : Byte := 0x00

/-- DAP_ERROR (R91). -/
def dapError : Byte := 0xFF

/-- The single-byte answer to a DAP frame refused as a whole, ID_DAP_Invalid (R92, R282, R283). -/
def dapInvalid : Frame := [0xFF]

/-- ACK OK (R103), as a transfer response byte (R95). -/
def ackOk : Byte := 0x01

/-- ACK WAIT (R103). -/
def ackWait : Byte := 0x02

/-- ACK FAULT (R103). -/
def ackFault : Byte := 0x04

/-- PROTOCOL_ERROR, bit 3 of the transfer response byte: the read-data parity check failed (R95, R199). -/
def ackParity : Byte := 0x08

/-- OK with VALUE_MISMATCH, bit 4 (R95, R237). -/
def ackMismatch : Byte := 0x11

/-- The ACK of the three sampled bits, the first sampled the least significant (R103). -/
def ackOf (bs : List Bool) : Byte := ofBits 8 bs

end Sys2Proof.Machine
end

