-- ==== Sys2Proof/Machine/State.lean ====
section
/-! DEFINITION. The state of the block as plain data: every register of R49, the event log of R45, and the model's own
fields (the responses handed out, the draws and moves to come, the events held back for the Pin/Bus Controller, the
lease waits of R12, the port of the SWD engine). -/

namespace Sys2Proof.Machine

/-- LINK(c), the transport connection (R22). -/
inductive Link where
  | attached | detached
  deriving DecidableEq, Repr

/-- PINMODE, the function of the shared pins (R28). -/
inductive PinMode where
  | hiZ | spi | swd
  deriving DecidableEq, Repr

/-- XFER_FSM(d), the SWD transfer state machine (R38, R204). -/
inductive XferFsm where
  | idle | awaitingAck | retrying | faulted
  deriving DecidableEq, Repr

/-- DAP_STATE(d), the connection state (R39); `idle` and `transferInProgress` are Connected(SWD). -/
inductive DapState where
  | disconnected | idle | transferInProgress
  deriving DecidableEq, Repr

/-! ## The event log (R45 to R47) -/

/-- One SWCLK cycle (R46). -/
inductive SwdCycle where
  | drive (b : Bool)
  | sample (b : Bool)
  | clock
  deriving DecidableEq, Repr

/-- The kinds of timing wait (R46). -/
inductive WaitKind where
  | css | csh | csd | rst | delay | pinwait
  deriving DecidableEq, Repr

/-- The event kinds of R46. -/
inductive EventKind where
  | grant (c : Chan)
  | release (c : Chan)
  | pin (p : Pin) (level : Bool)
  | mode (m : PinMode)
  | div (d : Divider)
  | spi (tx rx : Byte)
  | swd (k : SwdCycle)
  | swdio (oe level : Bool)
  | wait (k : WaitKind) (amount : Nat)
  | boot
  | reset
  deriving DecidableEq, Repr

/-- An event with the tag of the channel that was OWNER when it was recorded (R47); a reset has no tag. -/
structure Event where
  chan : Option Chan
  kind : EventKind
  deriving DecidableEq, Repr

/-- A lease wait of `chan` that ended by timeout (R128): the recorded delay T_LEASE_WAIT, and how many events of LOG come
before it (R12, log entry 23). -/
structure LeaseWait where
  chan : Chan
  amount : Nat
  after : Nat
  deriving DecidableEq, Repr

/-- An entry of the event log that R12 speaks of: an event of LOG (R46), or the T_LEASE_WAIT of a lease wait that ended
by timeout (log entry 23). -/
inductive LogEntry where
  | event (e : Event)
  | leaseWait (c : Chan) (amount : Nat)
  deriving DecidableEq, Repr

/-! ## Channel front ends (R22) -/

/-- The engine phase of a channel (R21): no frame taken; waiting in PENDING (R125); granted the lease after a wait and
about to run; or run, with its response built (none where the command has none) and the flag that its lease is still to
be released. -/
inductive Phase where
  | idle
  | waiting
  | granted
  | ran (resp : Option Frame) (release : Bool)
  deriving DecidableEq, Repr

/-- The front end of a channel: LINK, RX and BUSY of R22, the engine phase of R21, and the responses handed to the
transport, newest first (R299, observation). -/
structure Front where
  link : Link
  rx : Option Frame
  busy : Bool
  phase : Phase
  sent : List Frame
  deriving DecidableEq, Repr

/-! ## DAP interpreter registers -/

/-- The batch registers of R44, and `out`, the response data a batch builds (R231, R245). The counters are exact
natural numbers (R9). -/
structure Batch where
  postRead : Bool
  checkWrite : Bool
  respCount : Nat
  respValue : Byte
  retryLeft : Nat
  matchLeft : Nat
  lastData : Word
  out : List Byte
  deriving DecidableEq, Repr

/-- The registers of one DAP channel (R38 to R44). -/
structure DapRegs where
  dapState : DapState
  xferFsm : XferFsm
  swjDiv : Divider
  idleCycles : Byte
  retryCount : Half
  matchRetry : Half
  matchMask : Word
  turnaround : Nat
  dataPhase : Bool
  batch : Batch
  deriving DecidableEq, Repr

/-- The result of an SWD transfer (R197): the ACK as a response byte, and the word read. -/
structure SwdResp where
  ack : Byte
  rdata : Word
  deriving DecidableEq, Repr

/-- A request at the port of the SWD engine: the channel, the packet's bits, and the word a write sends
(model's own, log entry 9). -/
structure SwdReq where
  d : DapCh
  bits : Byte
  wdata : Word
  deriving DecidableEq, Repr

/-- The draws to come (R11), each list in the order in which rules sample it, and how many free values have been used
in place of a listed draw (model's own, log entry 3). -/
structure Draws where
  miso : List Bool
  swdio : List Bool
  cdone : List Bool
  sck : List Bool
  elapsed : List Nat
  used : Nat
  deriving DecidableEq, Repr

/-! ## The state -/

/-- The whole state. The log and each list of responses stand newest first. -/
structure State where
  /-- the implementation parameters (R7): constant -/
  cfg : Params
  /-- the front end of CH0 -/
  front0 : Front
  /-- the front end of CH1 -/
  front1 : Front
  /-- the front end of CH2 -/
  front2 : Front
  /-- OWNER (R24) -/
  owner : Option Chan
  /-- PENDING, first requester first (R25) -/
  pending : List Chan
  /-- LAST_GRANT (R26) -/
  lastGrant : Chan
  /-- PINMODE (R28) -/
  pinMode : PinMode
  /-- CS_N (R29) -/
  csN : Bool
  /-- RESET_N (R30) -/
  resetN : Bool
  /-- POWER_EN (R31) -/
  powerEn : Bool
  /-- SCK (R32) -/
  sck : Bool
  /-- SDO (R33) -/
  sdo : Bool
  /-- SWDIO_OE (R33) -/
  swdioOe : Bool
  /-- ACTIVE_DIV (R35) -/
  activeDiv : Divider
  /-- BOOT_REQ (R36) -/
  bootReq : Bool
  /-- BR_TXN (R37) -/
  brTxn : Bool
  /-- BR_DIV (R37) -/
  brDiv : Divider
  /-- the registers of CH1 (R38 to R44) -/
  dap1 : DapRegs
  /-- the registers of CH2 (R38 to R44) -/
  dap2 : DapRegs
  /-- LOG (R45), newest event first -/
  log : List Event
  /-- the bus events of the running command that the Pin/Bus Controller has still to execute, next event first
  (model's own, log entry 7) -/
  ahead : List Event
  /-- the lease waits that ended by timeout, newest first, each with its place among the events of LOG (R12, model's own,
  log entry 23) -/
  leaseWaits : List LeaseWait
  /-- the request at the SWD engine's port (model's own) -/
  swdPort : Option SwdReq
  /-- the result of the last packet run from the port (model's own) -/
  swdResult : Option SwdResp
  /-- the draws to come (model's own, R11) -/
  draws : Draws
  /-- the moves to come, first move first (model's own, R20, R291) -/
  sched : List Move
  deriving DecidableEq, Repr

/-- Why the machine stops: the specification errors of R292, which no rule of the spec reaches. -/
inductive Fault where
  /-- Raised by the shared lease operation when a channel requests a lease it already holds or waits for (R124). Safe:
  the spec calls it a specification error. -/
  | reacquire (c : Chan)
  /-- Raised by a bus primitive, or a Release, of a channel that is not OWNER (R129, R133). Safe. -/
  | primitiveWithoutLease (c : Chan)
  /-- Raised by an SPI byte outside PINMODE SPI (R153) or an SWD packet outside PINMODE SWD (the head of
  42_swd_engine.md), each of which the spec requires on entry. Safe. -/
  | wrongPinMode (c : Chan)
  deriving DecidableEq, Repr

/-- Why an input has no meaning. -/
inductive Refusal where
  /-- Raised by an arm of exec whose instruction has no meaning yet. Safe. -/
  | notModelled (mnemonic : String)
  /-- Raised when the bits at the SWD engine's port are none of the sixteen packets of R102. Safe: no command issues
  such bits and the spec gives them no effect. -/
  | notAPacket
  deriving DecidableEq, Repr

/-- A front end at reset (R22, R310). -/
def Front.reset : Front := { link := .detached, rx := none, busy := false, phase := .idle, sent := [] }

/-- The batch registers at the start of a command, and, as they do not exist between commands, at reset and between
commands too (R44). The 0 of RETRY_LEFT before the first access group and of MATCH_LEFT before the first value-match
read is the model's: R44 gives the first a value only at a group and the second none (DESIGN CHOICE, log entry 24). -/
def Batch.init : Batch :=
  { postRead := false, checkWrite := false, respCount := 0, respValue := 0, retryLeft := 0, matchLeft := 0,
    lastData := 0, out := [] }

/-- The registers of a DAP channel at reset (R38 to R43, R310). -/
def DapRegs.reset (p : Params) : DapRegs :=
  { dapState := .disconnected, xferFsm := .idle, swjDiv := divReset p, idleCycles := 0, retryCount := 100,
    matchRetry := 0, matchMask := 0, turnaround := 1, dataPhase := false, batch := Batch.init }

/-- The state right after reset under the parameters `p` (R49, R310), with no draw and no move listed. -/
def State.init (p : Params) : State where
  cfg := p
  front0 := Front.reset
  front1 := Front.reset
  front2 := Front.reset
  owner := none
  pending := []
  lastGrant := .ch2
  pinMode := .hiZ
  csN := true
  resetN := true
  powerEn := false
  sck := false
  sdo := false
  swdioOe := false
  activeDiv := divReset p
  bootReq := false
  brTxn := false
  brDiv := divReset p
  dap1 := DapRegs.reset p
  dap2 := DapRegs.reset p
  log := [⟨none, .reset⟩]
  ahead := []
  leaseWaits := []
  swdPort := none
  swdResult := none
  draws := { miso := [], swdio := [], cdone := [], sck := [], elapsed := [], used := 0 }
  sched := []

/-- The machine right after reset, under the suggested parameters (R7, R310). -/
def State.reset : State := State.init Params.suggested

end Sys2Proof.Machine
end

