-- ==== Sys2Proof/Machine/Ops.lean ====
section
/-! DEFINITION. The named operations: registers and draws, the pins (R34, R156), the Resource Arbiter (R124 to R129),
ending a command with an error and returning from it (R287, R288), the SPI byte-exchange controller (R153 to R155), the
SWD engine (R190 to R205), and the channel-local and block resets (R131, R310). -/

namespace Sys2Proof.Machine

/-- The outcome of a meaning or a step. -/
abbrev Result := Host.Outcome State Fault Refusal

/-- Go on from a next state; a stop stays a stop. -/
def andThen (o : Result) (k : State → Result) : Result :=
  match o with
  | .next s => k s
  | .fault f => .fault f
  | .refused r => .refused r

/-! ## Per-channel registers -/

/-- The front end of a channel (R22). -/
def State.front (s : State) (c : Chan) : Front :=
  match c with
  | .ch0 => s.front0
  | .ch1 => s.front1
  | .ch2 => s.front2

/-- Write the front end of a channel. -/
def State.setFront (s : State) (c : Chan) (f : Front) : State :=
  match c with
  | .ch0 => { s with front0 := f }
  | .ch1 => { s with front1 := f }
  | .ch2 => { s with front2 := f }

/-- Write the engine phase of a channel (R21). -/
def State.setPhase (s : State) (c : Chan) (p : Phase) : State := s.setFront c { s.front c with phase := p }

/-- The registers of a DAP channel (R38 to R44). -/
def State.dap (s : State) (d : DapCh) : DapRegs :=
  match d with
  | .v1 => s.dap1
  | .v2 => s.dap2

/-- Write the registers of a DAP channel. -/
def State.setDap (s : State) (d : DapCh) (r : DapRegs) : State :=
  match d with
  | .v1 => { s with dap1 := r }
  | .v2 => { s with dap2 := r }

/-- Write the batch registers of a DAP channel (R44). -/
def State.setBatch (s : State) (d : DapCh) (b : Batch) : State := s.setDap d { s.dap d with batch := b }

/-- Write XFER_FSM(d) (R38). -/
def State.setFsm (s : State) (d : DapCh) (f : XferFsm) : State := s.setDap d { s.dap d with xferFsm := f }

/-- Write DAP_STATE(d) (R39). -/
def State.setDapState (s : State) (d : DapCh) (x : DapState) : State := s.setDap d { s.dap d with dapState := x }

/-- d is Connected (R39). -/
def State.connected (s : State) (d : DapCh) : Bool := (s.dap d).dapState != .disconnected

/-! ## The log and the draws -/

/-- `Log(event)` of R10, tagged with the channel that is OWNER (R47). -/
def State.logEv (s : State) (k : EventKind) : State := { s with log := ⟨s.owner, k⟩ :: s.log }

/-- The entry of a recorded lease wait. -/
def LeaseWait.entry (w : LeaseWait) : LogEntry := .leaseWait w.chan w.amount

/-- The events of a log (newest first) and the lease waits `ws` (newest first), each wait after as many of the events as
it says. -/
def weave : List Event → List LeaseWait → List LogEntry
  | [], ws => ws.map LeaseWait.entry
  | e :: es, ws =>
    (ws.takeWhile (es.length < ·.after)).map LeaseWait.entry ++
      .event e :: weave es (ws.dropWhile (es.length < ·.after))

/-- The event log of R12 as one sequence, newest first: the events of LOG and the T_LEASE_WAIT of every lease wait that
ended by timeout, in the order in which they came (log entry 23). -/
def State.eventLog (s : State) : List LogEntry := weave s.log s.leaseWaits

/-- The event of LOG that an entry is, if it is one. -/
def LogEntry.event? : LogEntry → Option Event
  | .event e => some e
  | .leaseWait _ _ => none

/-- A draw of an input level (R11): the next bit the draw list gives, or a free value. -/
def State.drawBit (s : State) (src : BitSource) : Bool × State :=
  let free := (Config.freeBit src s.draws.used, { s with draws := { s.draws with used := s.draws.used + 1 } })
  match src with
  | .miso =>
    match s.draws.miso with
    | b :: bs => (b, { s with draws := { s.draws with miso := bs } })
    | [] => free
  | .swdio =>
    match s.draws.swdio with
    | b :: bs => (b, { s with draws := { s.draws with swdio := bs } })
    | [] => free
  | .cdone =>
    match s.draws.cdone with
    | b :: bs => (b, { s with draws := { s.draws with cdone := bs } })
    | [] => free
  | .sck =>
    match s.draws.sck with
    | b :: bs => (b, { s with draws := { s.draws with sck := bs } })
    | [] => free

/-- A draw of an elapsed time in 0..t (R268). -/
def State.drawElapsed (s : State) (t : Nat) : Nat × State :=
  match s.draws.elapsed with
  | x :: xs => (min x t, { s with draws := { s.draws with elapsed := xs } })
  | [] => (min (Config.freeElapsed s.draws.used) t, { s with draws := { s.draws with used := s.draws.used + 1 } })

/-! ## Pins -/

/-- The output register of a pin (R29 to R31). -/
def State.outReg (s : State) (p : OutPin) : Bool :=
  match p with
  | .csN => s.csN
  | .resetN => s.resetN
  | .powerEn => s.powerEn

/-- `SetPin(p, v)` of R156. -/
def State.setPin (s : State) (p : OutPin) (v : Bool) : State :=
  (match p with
  | .csN => { s with csN := v }
  | .resetN => { s with resetN := v }
  | .powerEn => { s with powerEn := v }).logEv (.pin (outPin p) v)

/-- `ReadPin(p)` of R34: an output reads its register; SCK and MOSI/SWDIO read their register where they are driven and
are draws where they are not; CDONE and MISO are draws. -/
def State.readPin (s : State) (p : Pin) : Bool × State :=
  match p with
  | .csN => (s.csN, s)
  | .resetN => (s.resetN, s)
  | .powerEn => (s.powerEn, s)
  | .sck => if s.pinMode = .hiZ then s.drawBit .sck else (s.sck, s)
  | .mosi => if s.pinMode = .spi ∨ (s.pinMode = .swd ∧ s.swdioOe = true) then (s.sdo, s) else s.drawBit .swdio
  | .miso => s.drawBit .miso
  | .cdone => s.drawBit .cdone

/-- Write PINMODE (R28: every write is logged). -/
def State.setPinMode (s : State) (m : PinMode) : State := { s with pinMode := m }.logEv (.mode m)

/-- Write ACTIVE_DIV (R35: every write is logged). -/
def State.setActiveDiv (s : State) (d : Divider) : State := { s with activeDiv := d }.logEv (.div d)

/-- Take a timing wait (R12, R46). -/
def State.wait (s : State) (k : WaitKind) (amount : Nat) : State := s.logEv (.wait k amount)

/-! ## The Pin/Bus Controller's own step (R20, log entry 7) -/

/-- The output register an executed pin event writes (R156); no other event writes CS_N, RESET_N or POWER_EN. -/
def State.applyPin (s : State) (k : EventKind) : State :=
  match k with
  | .pin .csN v => { s with csN := v }
  | .pin .resetN v => { s with resetN := v }
  | .pin .powerEn v => { s with powerEn := v }
  | _ => s

/-- The Pin/Bus Controller executes the next `n` events that lie ahead: each enters LOG, and a pin event writes its
register. -/
def playEvents : Nat → State → State
  | 0, s => s
  | n + 1, s =>
    match s.ahead with
    | [] => s
    | e :: es => playEvents n ({ s with ahead := es, log := e :: s.log }.applyPin e.kind)

/-- The state once every event that lies ahead has been executed. -/
def State.settled (s : State) : State := playEvents s.ahead.length s

/-- The bus events of the command of `c` are executed to the last before the command ends (R222). -/
def State.finishBus (s : State) (c : Chan) : State := if s.owner = some c then s.settled else s

/-- The events that the log of `t` has gained over that of `s`, oldest first. -/
def newEvents (s t : State) : List Event := (t.log.take (t.log.length - s.log.length)).reverse

/-- An event that may stay ahead: every one but the grant, which happens in the step of its request (R125). -/
def EventKind.holdable : EventKind → Bool
  | .grant _ => false
  | _ => true

/-- The command has run to its built response. -/
def Phase.hasRun : Phase → Bool
  | .ran _ _ => true
  | .idle | .waiting | .granted => false

/-- A command of `c` that has run from `s` to `t` keeps its last `hold` bus events ahead: LOG and the three outputs that
GET_GPIO reads (R34, R325) stand at the instant before them. With no event to hold the command is over in one step. -/
def State.holdBack (s : State) (c : Chan) (hold : Nat) (t : State) : State :=
  let es := newEvents s t
  let held := min hold (es.countP (·.kind.holdable))
  if (t.front c).phase.hasRun = true ∧ t.owner = some c ∧ t.ahead = [] ∧ held ≠ 0 then
    playEvents (es.length - held)
      { t with log := s.log, ahead := es, csN := s.csN, resetN := s.resetN, powerEn := s.powerEn }
  else t

/-! ## The Resource Arbiter -/

/-- The grant of R126: `c` leaves PENDING and becomes OWNER. -/
def State.grant (s : State) (c : Chan) : State :=
  ({ s with pending := s.pending.filter (· ≠ c), owner := some c, lastGrant := c }.setPhase c .granted).logEv (.grant c)

/-- The rule of R125 (a) and R129: while the lease is free, the first element of PENDING is granted in this step. -/
def State.arbitrate (s : State) : State :=
  match s.owner, s.pending with
  | none, c :: _ => s.grant c
  | _, _ => s

/-- `Acquire(c)` of R125 up to the wait: `c` is appended to PENDING and waits, and is granted at once if the lease is
free and it is first. -/
def State.acquire (s : State) (c : Chan) : State :=
  { s with pending := s.pending ++ [c] }.setPhase c .waiting |>.arbitrate

/-- `Release(c)` of R129; it requires OWNER = c. -/
def State.release (s : State) (c : Chan) : Result :=
  if s.owner = some c then .next { s.logEv (.release c) with owner := none }.arbitrate
  else .fault (.primitiveWithoutLease c)

/-- `c` leaves PENDING (R128, R131). -/
def State.leavePending (s : State) (c : Chan) : State := { s with pending := s.pending.filter (· ≠ c) }

/-- The bus action `k` of a channel that holds the lease already (R133). -/
def onBus (c : Chan) (k : State → State) (s : State) : Result :=
  if s.owner = some c then .next (k s) else .fault (.primitiveWithoutLease c)

/-- A command that takes the lease (R124, R125): a channel that was granted after a wait goes on with `k`; one that
holds or awaits the lease already is a specification error; otherwise it acquires, and goes on with `k` if it is granted
in this step. -/
def underLease (c : Chan) (k : State → State) (s : State) : Result :=
  if (s.front c).phase = .granted ∧ s.owner = some c then .next (k s)
  else if s.owner = some c ∨ c ∈ s.pending then .fault (.reacquire c)
  else if (s.acquire c).owner = some c then .next (k (s.acquire c))
  else .next (s.acquire c)

/-! ## Responses and errors -/

/-- `respond`: the command of `c` has ended and its response is built (R10, R222); `release` says that the lease it
took in this frame is still to be released. -/
def State.respond (s : State) (c : Chan) (resp : Option Frame) (release : Bool) : State :=
  s.setPhase c (.ran resp release)

/-- TAKING AN ERROR, the block's only exception (R287): the command ends with its error response. Nothing is saved and
nothing else changes; a lease taken by an earlier BEGIN is kept. -/
def State.raise (s : State) (c : Chan) (resp : Frame) : State := s.respond c (some resp) false

/-- `raise E` on the bridge (R80, R83): the one-byte status response. -/
def State.raiseBridge (s : State) (e : BridgeError) : State := s.raise .ch0 [bridgeStatus e]

/-- The response to a frame the decoder rejects (R81, R89, R110). -/
def malformedResponse (c : Chan) : Frame :=
  match c with
  | .ch0 => [bridgeStatus .protocolError]
  | .ch1 | .ch2 => dapInvalid

/-- The response when the bounded lease wait ends by timeout (R282). -/
def busyResponse (c : Chan) : Frame :=
  match c with
  | .ch0 => [bridgeStatus .resourceBusy]
  | .ch1 | .ch2 => dapInvalid

/-- Hand a response to the transport of `c` if it is attached, else discard it (R121, R122). -/
def State.deliver (s : State) (c : Chan) (resp : Option Frame) : State :=
  match resp, (s.front c).link with
  | some r, .attached => s.setFront c { s.front c with sent := r :: (s.front c).sent }
  | _, _ => s

/-- The channel takes its next frame after this one (R121, R288): its slot is empty and it is not busy. -/
def State.freeSlot (s : State) (c : Chan) : State :=
  s.setFront c { s.front c with rx := none, busy := false, phase := .idle }

/-- The end of the lease wrapper of R220: a Faulted machine returns to Idle, a transfer in progress ends (R240), and
the batch registers are gone (R44). -/
def State.closeDap (s : State) (d : DapCh) : State :=
  s.setDap d { s.dap d with
    xferFsm := .idle
    dapState := if (s.dap d).dapState = .transferInProgress then .idle else (s.dap d).dapState
    batch := Batch.init }

/-- The wrapper's end for a channel: the bridge has none (R220). -/
def State.closeCommand (s : State) (c : Chan) : State :=
  match dapOf c with
  | some d => s.closeDap d
  | none => s

/-- RETURNING from a command, with an error or without (R121, R220, R288): the last bus event is executed (R222), the
lease taken for this frame is released, then the response is handed over, and the channel is free for its next frame. -/
def State.endCommand (s : State) (c : Chan) : Result :=
  match (s.front c).phase with
  | .ran resp release =>
    let u := s.finishBus c
    andThen (if release then (u.closeCommand c).release c else .next u) fun t => .next ((t.deliver c resp).freeSlot c)
  | _ => .next s

/-- A bus command of the bridge or the DAP interpreter, run under the lease to its response: `k` gives the response and
the state after the command's last bus event (R222); the lease is released when the command ends. -/
def leasedCommand (c : Chan) (k : State → Frame × State) (s : State) : Result :=
  underLease c (fun t => (k t).2.respond c (some (k t).1) true) s

/-! ## The SPI byte-exchange controller -/

/-- The eight bit cycles of R153, in wire order: MOSI changes while SCK is low, MISO is drawn at the rising edge. -/
def spiBits : List Bool → State → List Bool × State
  | [], s => ([], s)
  | b :: bs, s =>
    let x := { s with sdo := b, sck := true }.drawBit .miso
    let y := spiBits bs { x.2 with sck := false }
    (x.1 :: y.1, y.2)

/-- `SpiXferByte(tx)` of R153. -/
def spiXferByte (tx : Byte) (s : State) : Byte × State :=
  let x := spiBits (spiWireBits tx) s
  (ofSpiWireBits x.1, x.2.logEv (.spi tx (ofSpiWireBits x.1)))

/-- The byte exchanges of an EXCHANGE, in order (R162). -/
def spiExchangeBytes : List Byte → State → List Byte × State
  | [], s => ([], s)
  | tx :: txs, s =>
    let x := spiXferByte tx s
    let y := spiExchangeBytes txs x.2
    (x.1 :: y.1, y.2)

/-- `CsWrite(v)` of R154. -/
def State.csWrite (s : State) (v : Bool) : State :=
  if v = false ∧ s.csN = true then ((s.wait .csd s.cfg.tCsd).setPin .csN false).wait .css s.cfg.tCss
  else if v = true ∧ s.csN = false then (s.wait .csh s.cfg.tCsh).setPin .csN true
  else s.setPin .csN v

/-- `SpiSetup()` of R155. -/
def State.spiSetup (s : State) : State := { s with sck := false, sdo := false }.setPinMode .spi

/-! ## The SWD bit primitives -/

/-- `SetSwdio(oe, level)` of R194. -/
def State.setSwdio (s : State) (oe level : Bool) : State :=
  { s with swdioOe := oe, sdo := level }.logEv (.swdio oe level)

/-- `SwdSetup()` of R190. -/
def State.swdSetup (s : State) : State :=
  ({ s with sck := true, sdo := true, swdioOe := true }.setPinMode .swd).logEv (.swdio true true)

/-- `DriveBit(b)` of R191: SWCLK falls and rises within the cycle. -/
def State.driveBit (s : State) (b : Bool) : State := { s with sdo := b, sck := true }.logEv (.swd (.drive b))

/-- `SampleBit()` of R192: the level is drawn while SWCLK is low, and SWCLK rises. -/
def State.sampleBit (s : State) : Bool × State :=
  let x := { s with sck := false }.drawBit .swdio
  (x.1, { x.2 with sck := true }.logEv (.swd (.sample x.1)))

/-- `ClockCycle()` of R193. -/
def State.clockCycle (s : State) : State := { s with sck := true }.logEv (.swd .clock)

/-- Driven cycles, first bit first. -/
def driveBits : List Bool → State → State
  | [], s => s
  | b :: bs, s => driveBits bs (s.driveBit b)

/-- `n` sampled cycles, first sample first. -/
def sampleBits : Nat → State → List Bool × State
  | 0, s => ([], s)
  | n + 1, s =>
    let x := s.sampleBit
    let y := sampleBits n x.2
    (x.1 :: y.1, y.2)

/-- `n` undriven cycles. -/
def clockCycles : Nat → State → State
  | 0, s => s
  | n + 1, s => clockCycles n s.clockCycle

/-! ## One SWD transfer -/

/-- The eight cycles of a request packet (R102): cycle k is bit k of the packet byte. -/
def requestBits (r : Nibble) : List Bool := bitsOf (packetByte r)

/-- The request, the release of SWDIO, the turnaround and the three ACK samples (R197). -/
def swdRequest (d : DapCh) (r : Nibble) (s : State) : List Bool × State :=
  let s1 := driveBits (requestBits r) s
  sampleBits 3 (clockCycles (s.dap d).turnaround (s1.setSwdio false s1.sdo))

/-- The idle cycles and the rest level after an OK transfer (R202, R197). -/
def swdIdle (d : DapCh) (s : State) : State :=
  (driveBits (List.replicate (s.dap d).idleCycles.toNat false) s).setSwdio true true

/-- The data phase of a read whose ACK is OK (R197): bad parity gives 0x08 in place of the ACK (R199). -/
def swdReadPhase (d : DapCh) (s : State) : SwdResp × State :=
  let x := sampleBits 32 s
  let y := x.2.sampleBit
  let v := ofBits 32 x.1
  let s1 := (clockCycles (s.dap d).turnaround y.2).setSwdio true true
  (⟨if y.1 = xor32 v then ackOk else ackParity, v⟩, swdIdle d s1)

/-- The data phase of a write whose ACK is OK (R197). -/
def swdWritePhase (d : DapCh) (w : Word) (s : State) : SwdResp × State :=
  let s1 := (clockCycles (s.dap d).turnaround s).setSwdio true true
  (⟨ackOk, 0⟩, swdIdle d ((driveBits (bitsOf w) s1).driveBit (xor32 w)))

/-- What follows a WAIT or FAULT ACK (R197, R201). -/
def swdNackPhase (d : DapCh) (r : Nibble) (s : State) : State :=
  let dummyRead := (s.dap d).dataPhase && r.getLsbD 1
  let dummyWrite := (s.dap d).dataPhase && !r.getLsbD 1
  let s1 := if dummyRead then clockCycles 33 s else s
  let s2 := (clockCycles (s.dap d).turnaround s1).setSwdio true true
  (if dummyWrite then driveBits (List.replicate 33 false) s2 else s2).setSwdio true true

/-- The back-off after a protocol-error ACK (R197). -/
def swdBackOff (d : DapCh) (s : State) : State := (clockCycles ((s.dap d).turnaround + 33) s).setSwdio true true

/-- `SwdXfer(r, wdata)` of R197. A sampled ACK of 0b000 is answered as it is, so that a transfer that was attempted may
end with the value byte 0x00, as R280 and the table of R95 have it and the last sentence of R95 has it not (DESIGN
CHOICE, log entry 26). -/
def swdXfer (d : DapCh) (r : Nibble) (w : Word) (s : State) : SwdResp × State :=
  let x := swdRequest d r s
  let ack := ackOf x.1
  if ack = ackOk then
    if r.getLsbD 1 then swdReadPhase d x.2 else swdWritePhase d w x.2
  else if ack = ackWait ∨ ack = ackFault then (⟨ack, 0⟩, swdNackPhase d r x.2)
  else (⟨ack, 0⟩, swdBackOff d x.2)

/-- The loop of R203 with `n` retries left: only WAIT is retried, with the same request and data. -/
def swdRetryLoop (d : DapCh) (r : Nibble) (w : Word) : Nat → State → SwdResp × State
  | 0, s => swdXfer d r w s
  | n + 1, s =>
    let x := swdXfer d r w s
    if x.1.ack = ackWait then
      let s1 := x.2.setBatch d { (x.2.dap d).batch with retryLeft := n }
      swdRetryLoop d r w n ((s1.setFsm d .retrying).setFsm d .awaitingAck)
    else x

/-- `SwdXferRetry(r, wdata)` of R203, with the transitions of R204. -/
def swdXferRetry (d : DapCh) (r : Nibble) (w : Word) (s : State) : SwdResp × State :=
  let budget := (s.dap d).retryCount.toNat
  let s1 := (s.setBatch d { (s.dap d).batch with retryLeft := budget }).setFsm d .awaitingAck
  let x := swdRetryLoop d r w budget s1
  (x.1, x.2.setFsm d (if x.1.ack = ackOk then .idle else .faulted))

/-- `BusStart(d)` of R221. -/
def State.busStart (s : State) (d : DapCh) : State :=
  let s1 := if s.pinMode = .swd then s else s.swdSetup
  s1.setActiveDiv (s1.dap d).swjDiv

/-- `SwjBits(n, F)` of R205. -/
def swjBits (bits : List Bool) (s : State) : State := driveBits bits (s.setSwdio true s.sdo)

/-! ## Attach, detach, timeout and reset -/

/-- A frame arrives (R120): it is received only on an attached channel whose slot is empty and which is not busy. -/
def State.arrive (s : State) (c : Chan) (f : Frame) : State :=
  if (s.front c).link = .attached ∧ (s.front c).rx = none ∧ (s.front c).busy = false then
    s.setFront c { s.front c with rx := some f }
  else s

/-- A transport attaches (R132). -/
def State.attach (s : State) (c : Chan) : State := s.setFront c { s.front c with link := .attached }

/-- The lease wait of a waiting channel ends by timeout (R128, R282): the channel leaves PENDING with its busy response.
LOG gains no event and no register changes (R46, R282); the delay T_LEASE_WAIT stands in `eventLog` at its place among
the events of LOG (R12, log entry 23). -/
def State.timeout (s : State) (c : Chan) : State :=
  if c ∈ s.pending then
    { (s.leavePending c).raise c (busyResponse c) with
      leaseWaits := ⟨c, s.cfg.tLeaseWait, s.log.length⟩ :: s.leaseWaits }
  else s

/-- The interpreter registers of a channel return to their reset values (R131). -/
def State.resetInterpreter (s : State) (c : Chan) : State :=
  match dapOf c with
  | some d => s.setDap d (DapRegs.reset s.cfg)
  | none => { s with brDiv := divReset s.cfg }

/-- The part of R131 after the waiting or executing command has ended: an open bridge transaction is closed, the slot
emptied, and the channel's registers reset. -/
def State.detachCleanup (s : State) (c : Chan) : Result :=
  andThen
    (if c = .ch0 ∧ s.brTxn = true then
      andThen (onBus .ch0 (fun t => { t.csWrite true with brTxn := false }) s) fun t => t.release .ch0
    else .next s)
    fun t => .next ((t.freeSlot c).resetInterpreter c)

/-- A front end after a block reset; the responses already handed over stay an observation (R310). -/
def resetFront (f : Front) : Front := { Front.reset with sent := f.sent }

/-- The block reset of R310: every register takes its reset value, the events that lie ahead never happen, and LOG gains
EvReset alone; the draws and the moves to come are the environment's and stay. -/
def State.blockReset (s : State) : State :=
  { State.init s.cfg with
    front0 := resetFront s.front0
    front1 := resetFront s.front1
    front2 := resetFront s.front2
    log := ⟨none, .reset⟩ :: s.log
    leaseWaits := s.leaseWaits
    draws := s.draws
    sched := s.sched }

end Sys2Proof.Machine
end

