-- ==== Sys2Proof/Machine/Bridge.lean ====
section
/-! DEFINITION. The seven SPI-Bridge commands of CH0 (R160 to R167). The length and opcode check of R160 is the
decoder's; each meaning makes the remaining checks in the order of R160. -/

namespace Sys2Proof.Machine

/-- The bridge's OK response with a payload (R80). -/
def bridgeReply (payload : List Byte) : Frame := bridgeOk :: payload

/-- What BEGIN does under the lease (R161). -/
def beginTransaction (s : State) : State :=
  { ((s.spiSetup).setActiveDiv s.brDiv).csWrite false with brTxn := true }

/-- BEGIN (R161): refused while a transaction is active; the lease is kept until END. -/
def execSpiBegin (s : State) : Result :=
  if s.brTxn = true then .next (s.raiseBridge .sequencingError)
  else underLease .ch0 (fun t => (beginTransaction t).respond .ch0 (some (bridgeReply [])) false) s

/-- EXCHANGE (R162): the bytes go out in order and the answer carries the bytes received. -/
def execSpiExchange (data : List Byte) (s : State) : Result :=
  if s.brTxn = false then .next (s.raiseBridge .noActiveTransaction)
  else if data ≠ [] ∧ s.owner ≠ some .ch0 then .fault (.primitiveWithoutLease .ch0)
  else if data ≠ [] ∧ s.pinMode ≠ .spi then .fault (.wrongPinMode .ch0)
  else
    .next ((spiExchangeBytes data s).2.respond .ch0 (some (bridgeReply (spiExchangeBytes data s).1)) false
     )

/-- END (R163): CS_N is deasserted and the transaction ends; the lease is released as the command ends. -/
def execSpiEnd (s : State) : Result :=
  if s.brTxn = false then .next (s.raiseBridge .noActiveTransaction)
  else
    onBus .ch0 (fun t =>
      { t.csWrite true with brTxn := false }.respond .ch0 (some (bridgeReply [])) true) s

/-- SET_GPIO on an output pin (R164): CS_N only inside the channel's own transaction; RESET_N and POWER_EN under the
held lease, or under a lease of this one frame. -/
def setOutput (p : OutPin) (v : Bool) (s : State) : Result :=
  match p with
  | .csN =>
    if s.brTxn = false then .next (s.raiseBridge .noActiveTransaction)
    else onBus .ch0 (fun t => (t.csWrite v).respond .ch0 (some (bridgeReply [])) false) s
  | .resetN | .powerEn =>
    if s.brTxn = true then
      onBus .ch0 (fun t => (t.setPin p v).respond .ch0 (some (bridgeReply [])) false) s
    else leasedCommand .ch0 (fun t => (bridgeReply [], t.setPin p v)) s

/-- SET_GPIO (R164): an unknown pin, the input CDONE and a level other than 0 and 1 are operand errors. -/
def execSetGpio (pin level : Byte) (s : State) : Result :=
  match bridgePin pin, bridgeLevel level with
  | .output p, some v => setOutput p v s
  | _, _ => .next (s.raiseBridge .protocolError)

/-- GET_GPIO (R165): `ReadPin` of R34 with no lease and no event, at this instant even inside another channel's lease
(R325). -/
def execGetGpio (pin : Byte) (s : State) : Result :=
  let read (p : Pin) : Result :=
    .next ((s.readPin p).2.respond .ch0 (some (bridgeReply [levelByte (s.readPin p).1])) false)
  match bridgePin pin with
  | .output p => read (outPin p)
  | .cdoneInput => read .cdone
  | .unknown => .next (s.raiseBridge .protocolError)

/-- SET_CLOCK (R166, R87): the divider waits for the next BEGIN; the answer is the rate selected. -/
def execSetClock (hz : Word) (s : State) : Result :=
  if hz = 0 then .next (s.raiseBridge .protocolError)
  else
    .next ({ s with brDiv := rateSel s.cfg hz.toNat }.respond .ch0
      (some (bridgeReply (le32 (BitVec.ofNat 32 (actualRate s.cfg (rateSel s.cfg hz.toNat)))))) false)

/-- The trigger of R167: the response is handed over first, then BOOT_REQ rises and the block leaves service. -/
def bootTrigger (s : State) : State :=
  { ((s.deliver .ch0 (some (bridgeReply []))).freeSlot .ch0).logEv .boot with bootReq := true }

/-- BOOTLOAD (R167): under the lease held, or one that only the reset ends. -/
def execBootload (s : State) : Result :=
  if s.brTxn = true then onBus .ch0 bootTrigger s else underLease .ch0 bootTrigger s

end Sys2Proof.Machine
end

