-- ==== Sys2Proof/Machine/DapConfig.lean ====
section
/-! DEFINITION. The CMSIS-DAP commands of information, connection, configuration, delay, reset and pins (R224 to R228,
R262 to R271, without the transfers), each under the lease wrapper of R220. -/

namespace Sys2Proof.Machine

/-- DAP_Info (R224): the table of R96. -/
def execDapInfo (d : DapCh) (id : Byte) (s : State) : Result :=
  leasedCommand d.chan (fun t => (0x00 :: infoPayload t.cfg id, t)) s

/-- DAP_HostStatus (R225): both operands are ignored. -/
def execDapHostStatus (d : DapCh) (_type _status : Byte) (s : State) : Result :=
  leasedCommand d.chan (fun t => ([0x01, dapOk], t)) s

/-- Connecting the channel in SWD mode (R226). -/
def connectSwd (d : DapCh) (s : State) : State :=
  let s1 := (s.setDapState d .idle).swdSetup
  s1.setActiveDiv (s1.dap d).swjDiv

/-- DAP_Connect (R226, R97): ports 0 and 1 select SWD; every other port is answered as unsupported. -/
def execDapConnect (d : DapCh) (port : Byte) (s : State) : Result :=
  leasedCommand d.chan
    (fun t => if port = 0x00 ∨ port = 0x01 then ([0x02, 0x01], connectSwd d t) else ([0x02, 0x00], t)) s

/-- Releasing the shared pins where SWD holds them (R227). -/
def releaseSwdPins (s : State) : State :=
  if s.pinMode = .swd then { s with swdioOe := false }.setPinMode .hiZ else s

/-- DAP_Disconnect (R227). -/
def execDapDisconnect (d : DapCh) (s : State) : Result :=
  leasedCommand d.chan (fun t => ([0x03, dapOk], releaseSwdPins (t.setDapState d .disconnected))) s

/-- DAP_TransferConfigure (R228). -/
def execDapTransferConfigure (d : DapCh) (idle : Byte) (waitRetry matchRetry : Half) (s : State) : Result :=
  leasedCommand d.chan
    (fun t => ([0x04, dapOk],
      t.setDap d { t.dap d with idleCycles := idle, retryCount := waitRetry, matchRetry := matchRetry })) s

/-- DAP_TransferAbort (R262): no lease, no response, no effect. -/
def execDapTransferAbort (d : DapCh) (s : State) : Result :=
  .next (s.respond d.chan none false)

/-- DAP_WriteABORT (R264): one DP ABORT packet, whose ACK is ignored. -/
def execDapWriteAbort (d : DapCh) (_idx : Byte) (abort : Word) (s : State) : Result :=
  leasedCommand d.chan
    (fun t =>
      if t.connected d then ([0x08, dapOk], (swdXfer d abortReg abort (t.busStart d)).2)
      else ([0x08, dapError], t)) s

/-- DAP_Delay (R265): the wait runs under the lease. -/
def execDapDelay (d : DapCh) (us : Half) (s : State) : Result :=
  leasedCommand d.chan (fun t => ([0x09, dapOk], t.wait .delay us.toNat)) s

/-- DAP_ResetTarget (R266): a pulse on RESET_N. -/
def execDapResetTarget (d : DapCh) (s : State) : Result :=
  leasedCommand d.chan
    (fun t => ([0x0A, dapOk, 0x01],
      ((t.setPin .resetN false).wait .rst t.cfg.tRstPulse).setPin .resetN true)) s

/-- What DAP_SWJ_Pins writes before its wait (R267): SWCLK and SWDIO only while the channel is Connected, RESET_N
always. -/
def swjPinsWrite (d : DapCh) (output select : Byte) (s : State) : State :=
  let conn := s.connected d
  let s1 := if conn ∧ (select.getLsbD 0 = true ∨ select.getLsbD 1 = true) then s.busStart d else s
  let s2 :=
    if conn ∧ select.getLsbD 0 = true then
      { s1 with sck := output.getLsbD 0 }.logEv (.pin .sck (output.getLsbD 0))
    else s1
  let s3 := if conn ∧ select.getLsbD 1 = true then s2.setSwdio true (output.getLsbD 1) else s2
  if select.getLsbD 7 = true then s3.setPin .resetN (output.getLsbD 7) else s3

/-- A selected pin that the block drives, with a level that is not the one asked for: the wait of R268 then runs to
its end. -/
def pinWaitBlocked (output select : Byte) (s : State) : Bool :=
  (select.getLsbD 0 && s.pinMode != .hiZ && s.sck != output.getLsbD 0) ||
  (select.getLsbD 1 && (s.pinMode == .spi || (s.pinMode == .swd && s.swdioOe)) && s.sdo != output.getLsbD 1) ||
  (select.getLsbD 7 && s.resetN != output.getLsbD 7)

/-- A selected pin that is read as a draw: the end of the wait is then a draw (R268). -/
def pinWaitOpen (select : Byte) (s : State) : Bool :=
  (select.getLsbD 0 && s.pinMode == .hiZ) ||
  (select.getLsbD 1 && !(s.pinMode == .spi || (s.pinMode == .swd && s.swdioOe)))

/-- `PinWait(out, sel, wait)` of R268, capped at 3 s; driven pins read back their register (R34). -/
def pinWait (output select : Byte) (wait : Word) (s : State) : State :=
  if wait = 0 then s
  else
    let t := min wait.toNat pinWaitCap
    if pinWaitBlocked output select s then s.wait .pinwait t
    else if pinWaitOpen select s then (s.drawElapsed t).2.wait .pinwait (s.drawElapsed t).1
    else s.wait .pinwait 0

/-- The input byte of R99 and R267: bits 2 to 6 read 0. -/
def pinInput (sck swdio resetN : Bool) : Byte :=
  (BitVec.ofBool resetN ++ 0#5 ++ BitVec.ofBool swdio ++ BitVec.ofBool sck : BitVec 8)

/-- DAP_SWJ_Pins (R267). -/
def execDapSwjPins (d : DapCh) (output select : Byte) (wait : Word) (s : State) : Result :=
  leasedCommand d.chan
    (fun t =>
      let t1 := pinWait output select wait (swjPinsWrite d output select t)
      let x := t1.readPin .sck
      let y := x.2.readPin .mosi
      ([0x10, pinInput x.1 y.1 y.2.resetN], y.2)) s

/-- DAP_SWJ_Clock (R269): the divider takes effect at the next bus command. -/
def execDapSwjClock (d : DapCh) (hz : Word) (s : State) : Result :=
  leasedCommand d.chan
    (fun t =>
      if hz = 0 then ([0x11, dapError], t)
      else ([0x11, dapOk], t.setDap d { t.dap d with swjDiv := rateSel t.cfg hz.toNat })) s

/-- DAP_SWJ_Sequence (R271). -/
def execDapSwjSequence (d : DapCh) (count : Byte) (data : List Byte) (s : State) : Result :=
  leasedCommand d.chan
    (fun t =>
      if t.connected d then ([0x12, dapOk], swjBits (seqBits count data) (t.busStart d))
      else ([0x12, dapError], t)) s

/-- DAP_SWD_Configure (R270, R98). -/
def execDapSwdConfigure (d : DapCh) (config : Byte) (s : State) : Result :=
  leasedCommand d.chan
    (fun t => ([0x13, dapOk],
      t.setDap d { t.dap d with turnaround := configTurnaround config, dataPhase := configDataPhase config })) s

end Sys2Proof.Machine
end

