-- ==== Sys2Proof/Machine/DapTransfer.lean ====
section
/-! DEFINITION. DAP_Transfer (R229 to R240) and DAP_TransferBlock (R245 to R250). RESP_VALUE, RESP_COUNT and the other
batch registers of R44 stand in State while a batch runs. -/

namespace Sys2Proof.Machine

/-! ## The batch registers -/

/-- RESP_VALUE of d (R44). -/
def State.respValue (s : State) (d : DapCh) : Byte := (s.dap d).batch.respValue

/-- Write RESP_VALUE. -/
def State.setRespValue (s : State) (d : DapCh) (v : Byte) : State :=
  s.setBatch d { (s.dap d).batch with respValue := v }

/-- Write POST_READ. -/
def State.setPostRead (s : State) (d : DapCh) (b : Bool) : State :=
  s.setBatch d { (s.dap d).batch with postRead := b }

/-- Write CHECK_WRITE. -/
def State.setCheckWrite (s : State) (d : DapCh) (b : Bool) : State :=
  s.setBatch d { (s.dap d).batch with checkWrite := b }

/-- Count a completed request or element: RESP_COUNT + 1 (R231, R245). -/
def State.countOne (s : State) (d : DapCh) : State :=
  s.setBatch d { (s.dap d).batch with respCount := (s.dap d).batch.respCount + 1 }

/-- Append a word read to the response data (R231). -/
def State.emitWord (s : State) (d : DapCh) (v : Word) : State :=
  s.setBatch d { (s.dap d).batch with out := (s.dap d).batch.out ++ le32 v }

/-- `(RESP_VALUE, v) <- SwdXferRetry(r, w)`: one access with WAIT retry; LAST_DATA keeps a word read (R44). RESP_VALUE is
0x00 after an ACK of 0b000 (log entry 26). -/
def access (d : DapCh) (r : Nibble) (w : Word) (s : State) : Word × State :=
  let x := swdXferRetry d r w s
  let b := (x.2.dap d).batch
  (x.1.rdata,
    x.2.setBatch d { b with
      respValue := x.1.ack
      lastData := if x.1.ack = ackOk ∧ r.getLsbD 1 = true then x.1.rdata else b.lastData })

/-- An access whose word, if it ends OK, goes into the response. -/
def accessEmit (d : DapCh) (r : Nibble) (s : State) : State :=
  let x := access d r 0 s
  if x.2.respValue d = ackOk then x.2.emitWord d x.1 else x.2

/-- The start of a batch: the bus, DAP_STATE and the initial batch registers (R231, R240, R245). -/
def batchStart (d : DapCh) (s : State) : State :=
  ((s.busStart d).setDapState d .transferInProgress).setBatch d Batch.init

/-! ## DAP_Transfer -/

/-- Collecting a posted AP read before the next request `req` (R232). -/
def collect (d : DapCh) (req : Byte) (s : State) : State :=
  if reqIsRead req ∧ reqIsAp req ∧ ¬ reqIsMatch req then accessEmit d (reqNibble req) s
  else (accessEmit d rdbuff s).setPostRead d false

/-- A plain read (R233). With POST_READ = 1 an AP read was issued by the collect. -/
def plainRead (d : DapCh) (req : Byte) (s : State) : State :=
  if reqIsAp req then
    if (s.dap d).batch.postRead then s
    else
      let x := access d (reqNibble req) 0 s
      if x.2.respValue d = ackOk then x.2.setPostRead d true else x.2
  else accessEmit d (reqNibble req) s

/-- The match loop of R237 with `n` further reads left in MATCH_LEFT. -/
def matchLoop (d : DapCh) (r : Nibble) (m : Word) : Nat → State → State
  | n, s =>
    let x := access d r 0 s
    if x.2.respValue d ≠ ackOk then x.2
    else if x.1 &&& (x.2.dap d).matchMask = m then x.2
    else
      match n with
      | 0 => x.2.setRespValue d ackMismatch
      | n + 1 => matchLoop d r m n (x.2.setBatch d { (x.2.dap d).batch with matchLeft := n })

/-- The match loop from MATCH_RETRY(d) further reads (R237). -/
def matchStart (d : DapCh) (r : Nibble) (m : Word) (s : State) : State :=
  let n := (s.dap d).matchRetry.toNat
  matchLoop d r m n (s.setBatch d { (s.dap d).batch with matchLeft := n })

/-- A value-match read (R237): an AP read is posted first, and its value discarded. -/
def matchRead (d : DapCh) (req : Byte) (m : Word) (s : State) : State :=
  if reqIsAp req then
    let x := access d (reqNibble req) 0 s
    if x.2.respValue d = ackOk then matchStart d (reqNibble req) m x.2 else x.2
  else matchStart d (reqNibble req) m s

/-- A match-mask write (R236): no wire transfer. -/
def maskWrite (d : DapCh) (w : Word) (s : State) : State :=
  (s.setDap d { s.dap d with matchMask := w }).setRespValue d ackOk

/-- A register write (R238). -/
def regWrite (d : DapCh) (req : Byte) (w : Word) (s : State) : State :=
  let x := access d (reqNibble req) w s
  if x.2.respValue d = ackOk then x.2.setCheckWrite d true else x.2

/-- One request after its collect (R231). -/
def requestBody (d : DapCh) (q : XferReq) (s : State) : State :=
  if reqIsRead q.req then
    let s1 := if reqIsMatch q.req then matchRead d q.req (reqWord q) s else plainRead d q.req s
    if s1.respValue d = ackOk then s1.setCheckWrite d false else s1
  else if reqIsMask q.req then maskWrite d (reqWord q) s
  else regWrite d q.req (reqWord q) s

/-- One request (R231): the collect of a posted read, then the request itself; RESP_VALUE tells whether it ended OK. -/
def oneRequest (d : DapCh) (q : XferReq) (s : State) : State :=
  if (s.dap d).batch.postRead then
    let s1 := collect d q.req s
    if s1.respValue d = ackOk then requestBody d q s1 else s1
  else requestBody d q s

/-- The loop of R231: the first access that does not end OK ends the batch (R234). -/
def transferLoop (d : DapCh) : List XferReq → State → State
  | [], s => s
  | q :: qs, s =>
    let s1 := oneRequest d q s
    if s1.respValue d = ackOk then transferLoop d qs (s1.countOne d) else s1

/-- The batch finish (R235): collect the last posted read, or confirm the last write. -/
def transferFinish (d : DapCh) (s : State) : State :=
  if s.respValue d ≠ ackOk then s
  else if (s.dap d).batch.postRead then (accessEmit d rdbuff s).setPostRead d false
  else if (s.dap d).batch.checkWrite then (access d rdbuff 0 s).2.setCheckWrite d false
  else s

/-- The whole batch of a Connected channel (R231). -/
def transferBatch (d : DapCh) (reqs : List XferReq) (s : State) : State :=
  transferFinish d (transferLoop d reqs (batchStart d s))

/-- The response of R231. -/
def transferReply (d : DapCh) (s : State) : Frame :=
  0x05 :: BitVec.ofNat 8 (s.dap d).batch.respCount :: s.respValue d :: (s.dap d).batch.out

/-- DAP_Transfer (R231); not connected: R239. -/
def execDapTransfer (d : DapCh) (_idx : Byte) (reqs : List XferReq) (s : State) : Result :=
  leasedCommand d.chan
    (fun t =>
      if t.connected d then (transferReply d (transferBatch d reqs t), transferBatch d reqs t)
      else ([0x05, 0x00, 0x00], t)) s

/-! ## DAP_TransferBlock -/

/-- The elements of a block read, `n` still to come: the last AP element is collected by RDBUFF (R245, R247). -/
def blockRead (d : DapCh) (r : Nibble) : Nat → State → State
  | 0, s => s
  | n + 1, s =>
    let s1 := accessEmit d (if n = 0 ∧ r.getLsbD 0 = true then rdbuff else r) s
    if s1.respValue d = ackOk then blockRead d r n (s1.countOne d) else s1

/-- The elements of a block write (R245). -/
def blockWrite (d : DapCh) (r : Nibble) : List Word → State → State
  | [], s => s
  | w :: ws, s =>
    let x := access d r w s
    if x.2.respValue d = ackOk then blockWrite d r ws (x.2.countOne d) else x.2

/-- A block of M > 0 elements on a Connected channel (R245): an AP read is posted first; the last write is confirmed by
an RDBUFF read (R246). -/
def blockBatch (d : DapCh) (m : Nat) (req : Byte) (data : List Word) (s : State) : State :=
  let r := reqNibble req
  let s1 := batchStart d s
  if reqIsRead req then
    if reqIsAp req then
      let x := access d r 0 s1
      if x.2.respValue d = ackOk then blockRead d r m x.2 else x.2
    else blockRead d r m s1
  else
    let s2 := blockWrite d r data s1
    if s2.respValue d = ackOk then (access d rdbuff 0 s2).2 else s2

/-- The response of R245. -/
def blockReply (d : DapCh) (s : State) : Frame :=
  0x06 :: le16 (BitVec.ofNat 16 (s.dap d).batch.respCount) ++ s.respValue d :: (s.dap d).batch.out

/-- DAP_TransferBlock (R245); not connected: R249; M = 0: R248. -/
def execDapTransferBlock (d : DapCh) (_idx : Byte) (count : Half) (req : Byte) (data : List Word) (s : State) :
    Result :=
  leasedCommand d.chan
    (fun t =>
      if t.connected d = true ∧ count ≠ 0 then
        (blockReply d (blockBatch d count.toNat req data t), blockBatch d count.toNat req data t)
      else ([0x06, 0x00, 0x00, 0x00], t)) s

end Sys2Proof.Machine
end

