-- ==== Sys2Proof/Machine/Swd.lean ====
section
/-! DEFINITION. The four SWD request packets of R102 as instructions: one SwdXfer of R197, run for the channel that asks
for it. The DAP commands run the same operation. -/

namespace Sys2Proof.Machine

/-- One packet at the engine's port: it needs the lease and PINMODE SWD (R133, the head of 42_swd_engine.md), and leaves
its result at the port. DESIGN CHOICE, unsafe (log entry 17): R191 and the entry line of R197 require SWDIO_OE = 1 and
SCK = 1 and give no effect without them; the packet then runs as if they were 1. -/
def runPacket (d : DapCh) (r : Nibble) (w : Word) (s : State) : Result :=
  if s.owner ≠ some d.chan then .fault (.primitiveWithoutLease d.chan)
  else if s.pinMode ≠ .swd then .fault (.wrongPinMode d.chan)
  else .next { (swdXfer d r w s).2 with swdPort := none, swdResult := some (swdXfer d r w s).1 }

/-- A packet that writes a DP register (R197). -/
def execSwdDpWrite (d : DapCh) (a : BitVec 2) (w : Word) (s : State) : Result :=
  runPacket d (swdNibble false false a) w s

/-- A packet that writes an AP register (R197). -/
def execSwdApWrite (d : DapCh) (a : BitVec 2) (w : Word) (s : State) : Result :=
  runPacket d (swdNibble true false a) w s

/-- A packet that reads a DP register (R197). -/
def execSwdDpRead (d : DapCh) (a : BitVec 2) (s : State) : Result := runPacket d (swdNibble false true a) 0 s

/-- A packet that reads an AP register (R197). -/
def execSwdApRead (d : DapCh) (a : BitVec 2) (s : State) : Result := runPacket d (swdNibble true true a) 0 s

end Sys2Proof.Machine
end

