-- ==== Sys2Proof/Machine/Dispatch.lean ====
section
/-! DEFINITION. The dispatch of an instruction to its meaning, one arm per row of the opcode table. -/

namespace Sys2Proof.Machine

def exec (i : Instr) (s : State) : Host.Outcome State Fault Refusal :=
  match i with
  | .spiBegin => Sys2Proof.Machine.execSpiBegin s
  | .spiExchange data => Sys2Proof.Machine.execSpiExchange data s
  | .spiEnd => Sys2Proof.Machine.execSpiEnd s
  | .setGpio pin level => Sys2Proof.Machine.execSetGpio pin level s
  | .getGpio pin => Sys2Proof.Machine.execGetGpio pin s
  | .setClock hz => Sys2Proof.Machine.execSetClock hz s
  | .bootload => Sys2Proof.Machine.execBootload s
  | .dapInfo d id => Sys2Proof.Machine.execDapInfo d id s
  | .dapHostStatus d type status => Sys2Proof.Machine.execDapHostStatus d type status s
  | .dapConnect d port => Sys2Proof.Machine.execDapConnect d port s
  | .dapDisconnect d => Sys2Proof.Machine.execDapDisconnect d s
  | .dapTransferConfigure d idle w m => Sys2Proof.Machine.execDapTransferConfigure d idle w m s
  | .dapTransfer d idx reqs => Sys2Proof.Machine.execDapTransfer d idx reqs s
  | .dapTransferBlock d idx count req data => Sys2Proof.Machine.execDapTransferBlock d idx count req data s
  | .dapTransferAbort d => Sys2Proof.Machine.execDapTransferAbort d s
  | .dapWriteAbort d idx a => Sys2Proof.Machine.execDapWriteAbort d idx a s
  | .dapDelay d us => Sys2Proof.Machine.execDapDelay d us s
  | .dapResetTarget d => Sys2Proof.Machine.execDapResetTarget d s
  | .dapSwjPins d output select wait => Sys2Proof.Machine.execDapSwjPins d output select wait s
  | .dapSwjClock d hz => Sys2Proof.Machine.execDapSwjClock d hz s
  | .dapSwjSequence d count data => Sys2Proof.Machine.execDapSwjSequence d count data s
  | .dapSwdConfigure d config => Sys2Proof.Machine.execDapSwdConfigure d config s
  | .swdDpWrite d a w => Sys2Proof.Machine.execSwdDpWrite d a w s
  | .swdApWrite d a w => Sys2Proof.Machine.execSwdApWrite d a w s
  | .swdDpRead d a => Sys2Proof.Machine.execSwdDpRead d a s
  | .swdApRead d a => Sys2Proof.Machine.execSwdApRead d a s

end Sys2Proof.Machine
end

