-- ==== Sys2Proof/Machine/Agents.lean ====
section
/-! DEFINITION. The agents of the block (R20) and the moves of the environment (R291): what a channel's step does
(R121), the SWD engine's, and what each move changes. -/

namespace Sys2Proof.Machine

/-- Execute the frame in a channel's slot (R110, R121): the decoded instruction, or the response to a frame that is
malformed, which changes nothing else (R81, R89). -/
def runFrame (c : Chan) (f : Frame) (s : State) : Result :=
  match decode s.cfg (.frame c f) with
  | .ok i => exec i s
  | .error _ => .next (s.raise c (malformedResponse c))

/-- The channel takes a frame: BUSY is true from here until its response is handed over (R22, R121). -/
def State.takeFrame (s : State) (c : Chan) : State := s.setFront c { s.front c with busy := true }

/-- One step of a channel agent (R121): take the frame in the slot and begin it, go on with a command that was granted
the lease after a wait, or end a command that has run. A waiting channel takes no step (R125). -/
def channelStep (c : Chan) (s : State) : Result :=
  match (s.front c).phase, (s.front c).rx with
  | .idle, some f => if (s.front c).busy = true then .next s else runFrame c f (s.takeFrame c)
  | .granted, some f => runFrame c f s
  | .ran _ _, _ => s.endCommand c
  | .idle, none | .granted, none | .waiting, _ => .next s

/-- A channel's step in a move that holds back the last `hold` bus events of a command that runs in it (log entry 7). -/
def pacedStep (hold : Nat) (c : Chan) (s : State) : Result :=
  andThen (channelStep c s) fun t => .next (s.holdBack c hold t)

/-- The agents of `cs` step in one cycle, in the round-robin order from the channel after LAST_GRANT, so that requests
of the same cycle enter PENDING in that order (R127). In the cycle in which BOOTLOAD raises BOOT_REQ the channels later
in that order still step: R298 and R311 do not say whether the block leaves service before or after them (DESIGN CHOICE,
log entry 25). -/
def runCycle (hold : Nat) (cs : List Chan) (s : State) : Result :=
  ((roundRobin s.lastGrant).filter (· ∈ cs)).foldl (fun o c => andThen o (pacedStep hold c)) (.next s)

/-- The SWD engine runs the packet at its port (R197, log entry 9). -/
def engineStep (s : State) : Result :=
  match s.swdPort with
  | none => .next s
  | some q =>
    match decode s.cfg (.packet q.d q.bits q.wdata) with
    | .ok i => exec i s
    | .error _ => .refused .notAPacket

/-- How a detach ends what the channel is doing (R131): a waiting command is abandoned; an executing one runs to its
end, and its response is discarded because the link is gone. -/
def detachCommand (c : Chan) (s : State) : Result :=
  if c ∈ s.pending then .next ((s.leavePending c).freeSlot c)
  else
    match (s.front c).phase, (s.front c).rx with
    | .granted, some f => andThen (runFrame c f s) (·.endCommand c)
    | .ran _ _, _ => s.endCommand c
    | .granted, none | .idle, _ | .waiting, _ => .next s

/-- A transport detaches (R131). -/
def detachStep (c : Chan) (s : State) : Result :=
  if (s.front c).link = .attached then
    andThen (detachCommand c (s.setFront c { s.front c with link := .detached })) (·.detachCleanup c)
  else .next s

/-- One move (R291). After BOOTLOAD the block is out of service: no move but a reset has an effect (R311). -/
def applyMove (m : Move) (s : State) : Result :=
  match m with
  | .reset => .next s.blockReset
  | .arrive c f => if s.bootReq then .next s else .next (s.arrive c f)
  | .attach c => if s.bootReq then .next s else .next (s.attach c)
  | .detach c arriving =>
    if s.bootReq then .next s
    else
      andThen (detachStep c s) fun t =>
        match arriving with
        | some f => .next (t.arrive c f)
        | none => .next t
  | .timeout c => if s.bootReq then .next s else .next (s.timeout c)
  | .run cs hold => if s.bootReq then .next s else runCycle hold cs s
  | .bus n => if s.bootReq then .next s else .next (playEvents n s)
  | .engine => if s.bootReq then .next s else engineStep s

/-- The next move: the first of the list, or a free value when the list has ended (R20, R291). -/
def nextMove (s : State) : Move × State :=
  match s.sched with
  | m :: ms => (m, { s with sched := ms })
  | [] => (Config.freeMove s.draws.used, { s with draws := { s.draws with used := s.draws.used + 1 } })

/-- The channel whose receive slot an encoding stands in, with the slot filled and the channel ready to take it on the
next move; or the packet at the engine's port, with the lease and the pins its channel needs (R22, R133). -/
def placeEncoded (s : State) (e : Encoded) : State :=
  match e with
  | .frame c f =>
    { s.setFront c { s.front c with link := .attached, rx := some f, busy := false, phase := .idle } with
      bootReq := false
      sched := .run [c] 0 :: s.sched }
  | .packet d bits w =>
    { s with
      bootReq := false
      owner := some d.chan
      pinMode := .swd
      sck := true
      sdo := true
      swdioOe := true
      swdPort := some ⟨d, bits, w⟩
      sched := .engine :: s.sched }

end Sys2Proof.Machine
end

