-- ==== Sys2Proof/Machine/Step.lean ====
section
/-! DEFINITION. One step of the machine: the next move of the run, applied to the state. -/

namespace Sys2Proof.Machine

/-- One step (R20, R121, R291): the next move and its effect. -/
def step (s : State) : Host.Outcome State Fault Refusal := applyMove (nextMove s).1 (nextMove s).2

/-- `s` with a word of the opcode table stored where the next step fetches it: in the receive slot of its channel, with
that channel's agent as the next to step, or at the SWD engine's port. -/
def State.withFetchWord (s : State) (nbits w : Nat) : State := placeEncoded s (tableLayout nbits w)

end Sys2Proof.Machine
end

