-- ==== Sys2Proof/WellFormed.lean ====
section
/-! DEFINITION. Which instructions are well formed: those a frame or a packet can encode, within the size limits of
R81, R86 and R89. -/

namespace Sys2Proof

/-- A request carries its 32-bit word exactly where R229 says one follows. -/
def XferReq.wellFormed (q : XferReq) : Bool := q.word.isSome == reqNeedsWord q.req

/-- What R81, R86, R101, R229, R230, R245 and R276 ask of an instruction. The operand values a command itself checks
(a pin, a level, a rate) are not among it: such a frame is well formed and the command answers with its error. -/
def wellFormed (p : Params) (i : Instr) : Bool :=
  match i with
  | .spiBegin | .spiEnd | .bootload => 1 ≤ p.bridgeMaxFrame
  | .spiExchange data => data.length < 65536 && 3 + data.length ≤ p.bridgeMaxFrame
  | .setGpio _ _ => 3 ≤ p.bridgeMaxFrame
  | .getGpio _ => 2 ≤ p.bridgeMaxFrame
  | .setClock _ => 5 ≤ p.bridgeMaxFrame
  | .dapTransfer _ _ reqs =>
    reqs.length < 256 && reqs.all XferReq.wellFormed && maxResponseLen p i ≤ p.dapPktSize
  | .dapTransferBlock _ _ count req data =>
    data.length == (if reqIsRead req then 0 else count.toNat) && maxResponseLen p i ≤ p.dapPktSize
  | .dapSwjSequence _ count data => data.length == seqByteCount count && maxResponseLen p i ≤ p.dapPktSize
  | .dapInfo _ _ | .dapHostStatus _ _ _ | .dapConnect _ _ | .dapDisconnect _ | .dapTransferConfigure _ _ _ _
  | .dapTransferAbort _ | .dapWriteAbort _ _ _ | .dapDelay _ _ | .dapResetTarget _ | .dapSwjPins _ _ _ _
  | .dapSwjClock _ _ | .dapSwdConfigure _ _ => maxResponseLen p i ≤ p.dapPktSize
  | .swdDpWrite _ _ _ | .swdApWrite _ _ _ | .swdDpRead _ _ | .swdApRead _ _ => true

end Sys2Proof
end

