-- ==== Sys2Proof/Safety.lean ====
section
/-! DEFINITION. What a safe state and a safe run are, in the terms the statements use: the log read as a sequence of
leases (R134), the invariant of the machine, quiescence (R299), and the words for what a statement says of a result. -/

namespace Sys2Proof.Machine

/-! ## The log as a sequence of leases -/

/-- Whether an event may stand inside a lease of `c`: SPI bytes belong to CH0 and SWD cycles to a DAP channel (R134). -/
def EventKind.allowedFor (k : EventKind) (c : Chan) : Bool :=
  match k with
  | .spi _ _ => c == .ch0
  | .swd _ | .swdio _ _ => c != .ch0
  | _ => true

/-- The owner after one event, where the log before it leaves the owner `o`; none where R47, R126, R129 or R134 does
not allow the event there. -/
def ownerAfter (o : Option Chan) (e : Event) : Option (Option Chan) :=
  match e.kind with
  | .reset => if e.chan = none then some none else none
  | .grant c => if o = none ∧ e.chan = some c then some (some c) else none
  | .release c => if o = some c ∧ e.chan = some c then some none else none
  | k =>
    match o with
    | some c => if e.chan = some c ∧ k.allowedFor c then some (some c) else none
    | none => none

/-- The owner a log leaves (the log stands newest first); none where the log is no sequence of leases. -/
def leasedLog : List Event → Option (Option Chan)
  | [] => some none
  | e :: es =>
    match leasedLog es with
    | some o => ownerAfter o e
    | none => none

/-- The log after the events `ks`, in this order, each with the tag `o` (R47). -/
def gains (o : Option Chan) (ks : List EventKind) (log : List Event) : List Event :=
  (ks.map fun k => (⟨o, k⟩ : Event)).reverse ++ log

/-- The number of SWCLK cycles in a log (R200, R206). -/
def swdCycles (log : List Event) : Nat :=
  log.countP fun e => match e.kind with
    | .swd _ => true
    | _ => false

/-! ## Phases and leases -/

/-- The phase in which a channel holds a lease taken for its frame: granted, or run and not yet released (R130). -/
def Phase.holdsLease : Phase → Bool
  | .granted => true
  | .ran _ release => release
  | .idle | .waiting => false

/-- A command has run under a lease of its frame and has not ended (R220). -/
def Phase.running : Phase → Bool
  | .ran _ release => release
  | .idle | .waiting | .granted => false

/-- The commands that take a lease outside a transaction (R130): BEGIN, SET_GPIO of RESET_N and POWER_EN, BOOTLOAD, and
every DAP command but DAP_TransferAbort (R220). -/
def Instr.takesLease : Instr → Bool
  | .spiBegin | .bootload => true
  | .setGpio pin level => (pin == 0x01 || pin == 0x02) && (level == 0x00 || level == 0x01)
  | .dapInfo _ _ | .dapHostStatus _ _ _ | .dapConnect _ _ | .dapDisconnect _ | .dapTransferConfigure _ _ _ _
  | .dapTransfer _ _ _ | .dapTransferBlock _ _ _ _ _ | .dapWriteAbort _ _ _ | .dapDelay _ _ | .dapResetTarget _
  | .dapSwjPins _ _ _ _ | .dapSwjClock _ _ | .dapSwjSequence _ _ _ | .dapSwdConfigure _ _ => true
  | .dapTransferAbort _ | .spiExchange _ | .spiEnd | .getGpio _ | .setClock _
  | .swdDpWrite _ _ _ | .swdApWrite _ _ _ | .swdDpRead _ _ | .swdApRead _ _ => false

/-- The frame in the slot of `c` is a command that takes a lease now (R130): on CH0, only outside a transaction. -/
def State.wantsLease (s : State) (c : Chan) : Bool :=
  match (s.front c).rx with
  | none => false
  | some f =>
    match decode s.cfg (.frame c f) with
    | .ok i => Instr.takesLease i && !(c == .ch0 && s.brTxn)
    | .error _ => false

/-! ## The invariant -/

/-- What holds of the machine between steps. -/
structure State.Inv (s : State) : Prop where
  /-- a channel waits at most once (R25) -/
  pendingNodup : s.pending.Nodup
  /-- the owner never waits (R25) -/
  ownerNotPending : ∀ c, s.owner = some c → c ∉ s.pending
  /-- nobody waits for a free lease (R125, R129) -/
  freeNoneWaiting : s.owner = none → s.pending = []
  /-- a channel is in PENDING exactly while its command waits (R125) -/
  waitingIff : ∀ c, c ∈ s.pending ↔ (s.front c).phase = .waiting
  /-- BUSY is true exactly from the taking of a frame to its end (R22) -/
  busyIff : ∀ c, (s.front c).busy = false ↔ (s.front c).phase = .idle
  /-- the frame being executed stays in the slot (R21, R121) -/
  busyFrame : ∀ c, (s.front c).busy = true → (s.front c).rx ≠ none
  /-- a detached channel holds no frame (R131) -/
  detachedEmpty : ∀ c, (s.front c).link = .detached → (s.front c).rx = none ∧ (s.front c).phase = .idle
  /-- only a command that takes a lease waits for one, or is granted one after a wait (R130) -/
  waiterWants : ∀ c, (s.front c).phase = .waiting ∨ (s.front c).phase = .granted → s.wantsLease c = true
  /-- a lease of one frame is held by its channel (R130) -/
  holderOwns : ∀ c, (s.front c).phase.holdsLease = true → s.owner = some c
  /-- while BR_TXN is true, OWNER = CH0 (R37) -/
  txnOwns : s.brTxn = true → s.owner = some .ch0
  /-- inside a transaction no frame of CH0 holds a lease of its own (R124, R130) -/
  txnNoFrameLease : s.brTxn = true → (s.front .ch0).phase.holdsLease = false
  /-- the lease is held for a frame, for an open transaction, or after BOOTLOAD (R130, R167) -/
  ownerWhy : ∀ c, s.owner = some c →
    s.bootReq = true ∨ (s.front c).phase.holdsLease = true ∨ (c = .ch0 ∧ s.brTxn = true)
  /-- inside a transaction the shared pins are in SPI mode with SCK low (R153, R155) -/
  txnPins : s.brTxn = true → s.pinMode = .spi ∧ s.sck = false
  /-- outside a transaction the chip select is deasserted, once the events that lie ahead are executed (R161) -/
  csIdle : s.brTxn = false → s.settled.csN = true
  /-- in SWD mode the block drives SWDIO between commands (R210) -/
  swdDriven : s.pinMode = .swd → s.swdioOe = true
  /-- while no command of d has run, XFER_FSM is Idle, no transfer is in progress and the batch registers are as
  initial (R38, R39, R44) -/
  dapRest : ∀ d : DapCh, (s.front d.chan).phase.running = false →
    (s.dap d).xferFsm = .idle ∧ (s.dap d).dapState ≠ .transferInProgress ∧ (s.dap d).batch = Batch.init
  /-- TURNAROUND is 1 to 4 (R43) -/
  turnaroundRange : ∀ d, 1 ≤ (s.dap d).turnaround ∧ (s.dap d).turnaround ≤ 4
  /-- the port of the SWD engine is empty: no command leaves a packet there (log entry 9) -/
  portEmpty : s.swdPort = none
  /-- the log is a sequence of leases that leaves the present owner (R47, R134) -/
  logLeased : leasedLog s.log = some s.owner
  /-- bus events lie ahead only of a command that has run and not ended, under the lease (R73, R133) -/
  aheadRuns : s.ahead ≠ [] → ∃ c, s.owner = some c ∧ (s.front c).phase.hasRun = true
  /-- the events that lie ahead belong to the present lease and do not end it (R47, R134) -/
  aheadLeased : ∀ e ∈ s.ahead, ownerAfter s.owner e = some s.owner
  /-- a recorded lease wait has its place among the events that LOG holds (R12, log entry 23) -/
  waitsPlaced : ∀ w ∈ s.leaseWaits, w.after ≤ s.log.length

/-- No agent has work (R299): every slot is empty, no channel is busy and none waits. -/
def State.Quiescent (s : State) : Prop :=
  (∀ c, (s.front c).rx = none ∧ (s.front c).busy = false) ∧ s.pending = []

/-! ## What a statement says of a result -/

/-- The response that a channel's command has built, if its command has run. -/
def State.response (s : State) (c : Chan) : Option Frame :=
  match (s.front c).phase with
  | .ran resp _ => resp
  | _ => none

/-- The lease is free and nobody waits. -/
def State.Free (s : State) : Prop := s.owner = none ∧ s.pending = []

/-- A channel may run a command that takes a lease in this step: it was granted the lease after a wait, or the lease is
free and nobody waits for it (R125). -/
def State.CanLease (s : State) (c : Chan) : Prop :=
  ((s.front c).phase = .granted ∧ s.owner = some c) ∨ ((s.front c).phase ≠ .granted ∧ s.Free)

/-- The state in which the command of a channel that can lease starts its bus action: `s` itself where the lease was
granted after a wait, and `s` after the grant of R126 where the grant comes in this step. -/
def State.leased (s : State) (c : Chan) : State :=
  if (s.front c).phase = .granted then s
  else
    { s with owner := some c, pending := [], lastGrant := c, log := ⟨some c, .grant c⟩ :: s.log }.setPhase c .granted

/-- The command of `c` answers `f` from the state `t` and releases its lease as it ends (R220, R222). -/
def State.answers (t : State) (c : Chan) (f : Frame) : State := t.respond c (some f) true

/-- The command of `c` answers `f` from the state `t` and keeps the lease as it was. -/
def State.answersKeeping (t : State) (c : Chan) (f : Frame) : State := t.respond c (some f) false

/-- The channel whose frames, or whose packets, an instruction is (R13). -/
def Instr.chan : Instr → Chan
  | .spiBegin | .spiExchange _ | .spiEnd | .setGpio _ _ | .getGpio _ | .setClock _ | .bootload => .ch0
  | .dapInfo d _ | .dapHostStatus d _ _ | .dapConnect d _ | .dapDisconnect d | .dapTransferConfigure d _ _ _
  | .dapTransfer d _ _ | .dapTransferBlock d _ _ _ _ | .dapTransferAbort d | .dapWriteAbort d _ _ | .dapDelay d _
  | .dapResetTarget d | .dapSwjPins d _ _ _ | .dapSwjClock d _ | .dapSwjSequence d _ _ | .dapSwdConfigure d _
  | .swdDpWrite d _ _ | .swdApWrite d _ _ | .swdDpRead d _ | .swdApRead d _ => d.chan

/-! ## The wire of one SWD packet -/

/-- Cycles in which the host drives the bits. -/
def drives (bs : List Bool) : List EventKind := bs.map fun b => .swd (.drive b)

/-- Cycles in which the host samples the bits. -/
def samples (bs : List Bool) : List EventKind := bs.map fun b => .swd (.sample b)

/-- Cycles in which nobody drives. -/
def clocks (n : Nat) : List EventKind := List.replicate n (.swd .clock)

/-- The events of one packet, in wire order, when the target answers with the sampled bits `bs` (R197): TURNAROUND,
IDLE_CYCLES and DATA_PHASE are those of `x`. -/
def packetEvents (x : DapRegs) (r : Nibble) (w : Word) (bs : List Bool) : List EventKind :=
  let parity := r.getLsbD 0 ^^ r.getLsbD 1 ^^ r.getLsbD 2 ^^ r.getLsbD 3
  let ack := ackOf (bs.take 3)
  drives [true, r.getLsbD 0, r.getLsbD 1, r.getLsbD 2, r.getLsbD 3, parity, false, true] ++ [.swdio false true] ++
    clocks x.turnaround ++ samples (bs.take 3) ++
    (if ack = ackOk then
      (if r.getLsbD 1 then samples (bs.drop 3) ++ clocks x.turnaround ++ [.swdio true true]
       else clocks x.turnaround ++ [.swdio true true] ++ drives (bitsOf w ++ [xor32 w])) ++
      drives (List.replicate x.idleCycles.toNat false) ++ [.swdio true true]
    else if ack = ackWait ∨ ack = ackFault then
      (if x.dataPhase = true ∧ r.getLsbD 1 = true then clocks 33 else []) ++ clocks x.turnaround ++ [.swdio true true] ++
      (if x.dataPhase = true ∧ r.getLsbD 1 = false then drives (List.replicate 33 false) else []) ++ [.swdio true true]
    else clocks (x.turnaround + 33) ++ [.swdio true true])

/-- `bs` is what one packet samples: three ACK bits, and after an OK read 32 data bits and the parity bit (R197). -/
abbrev PacketBits (r : Nibble) (bs : List Bool) : Prop :=
  bs.length = if ackOf (bs.take 3) = ackOk ∧ r.getLsbD 1 = true then 36 else 3

/-- The result of a packet that samples `bs` (R197, R199). -/
def packetResult (r : Nibble) (bs : List Bool) : SwdResp :=
  let ack := ackOf (bs.take 3)
  if ack = ackOk ∧ r.getLsbD 1 = true then
    let v : Word := ofBits 32 ((bs.drop 3).take 32)
    ⟨if bs.getD 35 false = xor32 v then ackOk else ackParity, v⟩
  else ⟨ack, 0⟩

/-- A state after wire activity of its owner: the line at rest (R210), the log longer by `ks`, and the SWDIO draws
`rest` still to come. -/
def State.afterWire (s : State) (ks : List EventKind) (rest : List Bool) : State :=
  { s with
    sck := true
    sdo := true
    swdioOe := true
    log := gains s.owner ks s.log
    draws := { s.draws with swdio := rest } }

/-- The bits a target answers to an OK read of `v` with good parity (R104). -/
def okRead (v : Word) : List Bool := [true, false, false] ++ bitsOf v ++ [xor32 v]

/-- The bits a target answers to an OK write (R103). -/
def okWrite : List Bool := [true, false, false]

/-- The bits of a WAIT answer (R103). -/
def waitBits : List Bool := [false, true, false]

/-- The sampled bits of an access that ends other than OK, with the result `ack` (R203, R234): an ACK that is neither
OK nor WAIT, a WAIT on every attempt of the budget, or a read with bad parity. -/
def FailedAccess (x : DapRegs) (r : Nibble) (bs : List Bool) (ack : Byte) : Prop :=
  (bs.length = 3 ∧ ackOf bs = ack ∧ ack ≠ ackOk ∧ ack ≠ ackWait) ∨
  (bs = (List.replicate (x.retryCount.toNat + 1) waitBits).flatten ∧ ack = ackWait) ∨
  (r.getLsbD 1 = true ∧ (∃ v, bs = [true, false, false] ++ bitsOf v ++ [!xor32 v]) ∧ ack = ackParity)

/-! ## The accesses of a batch -/

/-- One SWD access of a batch: its request nibble, the word it sends, whether the word it reads goes into the response,
and the mask and value that the word must match (R237). -/
structure Access where
  nibble : Nibble
  wdata : Word
  emits : Bool
  wants : Option (Word × Word)
  deriving DecidableEq, Repr

/-- The word an access reads is the one a value-match read waits for (R237); every other access takes any word. -/
def Access.accepts (a : Access) (v : Word) : Bool :=
  match a.wants with
  | some m => v &&& m.1 == m.2
  | none => true

/-- The bits a target answers to an access with OK, `v` being the word of a read (R103, R104). -/
def Access.answerBits (a : Access) (v : Word) : List Bool := if a.nibble.getLsbD 1 then okRead v else okWrite

/-- The accesses of a DAP_Transfer whose accesses all end OK and whose value-match reads match at once, written from
R231 to R238 apart from the operation that runs them: `mask` is MATCH_MASK, `post` POST_READ and `check` CHECK_WRITE
before the first request. RDBUFF is the nibble 0xE. -/
def accessPlan (mask : Word) (post check : Bool) : List XferReq → List Access
  | [] =>
    if post then [⟨0xE, 0, true, none⟩]
    else if check then [⟨0xE, 0, false, none⟩]
    else []
  | q :: qs =>
    let r : Nibble := q.req.extractLsb' 0 4
    let w := q.word.getD 0
    let collect : List Access := if post then [⟨0xE, 0, true, none⟩] else []
    if q.req.getLsbD 1 then
      if q.req.getLsbD 4 then
        collect ++ (if q.req.getLsbD 0 then [⟨r, 0, false, none⟩] else []) ++
          ⟨r, 0, false, some (mask, w)⟩ :: accessPlan mask false false qs
      else if q.req.getLsbD 0 then ⟨r, 0, post, none⟩ :: accessPlan mask true false qs
      else collect ++ ⟨r, 0, true, none⟩ :: accessPlan mask false false qs
    else if q.req.getLsbD 5 then collect ++ accessPlan w false check qs
    else collect ++ ⟨r, w, false, none⟩ :: accessPlan mask false true qs

/-- MATCH_MASK after the match-mask writes of a batch (R236). -/
def lastMask (mask : Word) (reqs : List XferReq) : Word :=
  reqs.foldl (fun m q => if !q.req.getLsbD 1 && q.req.getLsbD 5 then q.word.getD 0 else m) mask

/-- `t` is `s` but for the registers that a DAP_Transfer or DAP_TransferBlock of `d` may write: the shared pins and the
divider, the log, the draws, MATCH_MASK, XFER_FSM, DAP_STATE and the batch registers of `d`, and its phase. -/
def SameButTransfer (d : DapCh) (s t : State) : Prop :=
  t = ({ s with
        pinMode := t.pinMode, activeDiv := t.activeDiv, sck := t.sck, sdo := t.sdo, swdioOe := t.swdioOe
        log := t.log, draws := t.draws }.setDap d
      { s.dap d with
        matchMask := (t.dap d).matchMask, xferFsm := (t.dap d).xferFsm, dapState := (t.dap d).dapState
        batch := (t.dap d).batch }).setPhase d.chan (t.front d.chan).phase

end Sys2Proof.Machine
end

