-- ==== Sys2Proof/Certificates/Slice0/Obligations.lean ====
section
/-! DEFINITION. The statements for the provers: what the instructions and the machine do, from the numbered rules of
the spec. -/

open Sys2Proof Sys2Proof.Machine

/-- O1. Written-out words decode to their instructions (R82, R90, R102). -/
def Obligations.EncodedWordsDecode : Prop :=
  decode Params.suggested (.frame .ch0 [0x01]) = .ok .spiBegin ∧
  decode Params.suggested (.frame .ch0 [0x02, 0x02, 0x00, 0x9F, 0x3C]) = .ok (.spiExchange [0x9F, 0x3C]) ∧
  decode Params.suggested (.frame .ch0 [0x04, 0x02, 0x01]) = .ok (.setGpio 0x02 0x01) ∧
  decode Params.suggested (.frame .ch0 [0x06, 0x40, 0x42, 0x0F, 0x00]) = .ok (.setClock 1000000) ∧
  decode Params.suggested (.frame .ch1 [0x02, 0x01]) = .ok (.dapConnect .v1 0x01) ∧
  decode Params.suggested (.frame .ch2 [0x04, 0x00, 0x02, 0x00, 0x00, 0x00]) =
    .ok (.dapTransferConfigure .v2 0x00 0x0002 0x0000) ∧
  decode Params.suggested (.frame .ch1 [0x13, 0x05]) = .ok (.dapSwdConfigure .v1 0x05) ∧
  decode Params.suggested (.packet .v1 0xA5 0) = .ok (.swdDpRead .v1 0)

/-- O2. Decoding the encoding of a well-formed instruction gives it back (R82, R90, R102, R107, R110). -/
def Obligations.EncodeDecodeRoundTrip : Prop :=
  ∀ (p : Params) (i : Instr), wellFormed p i = true → decode p (encode i) = .ok i

/-- O3. A bridge frame decodes only if it is exactly the encoding of its instruction (R81, R82, R84, R86). -/
def Obligations.BridgeDecodeExact : Prop :=
  ∀ (p : Params) (f : Frame) (i : Instr), decode p (.frame .ch0 f) = .ok i →
    wellFormed p i = true ∧ encode i = .frame .ch0 f

/-- O4. A DAP frame decodes to the instruction its leading bytes encode, and trailing bytes are ignored (R89, R90,
R230). -/
def Obligations.DapDecodePrefix : Prop :=
  ∀ (p : Params) (d : DapCh) (f : Frame) (i : Instr), decode p (.frame d.chan f) = .ok i →
    wellFormed p i = true ∧ (∃ g tail, encode i = .frame d.chan g ∧ f = g ++ tail) ∧
    ∀ tail : Frame, decode p (.frame d.chan (f ++ tail)) = .ok i

/-- O5. A packet decodes exactly where its bits are one of the sixteen packets of R102 (R102). -/
def Obligations.PacketDecodeExact : Prop :=
  ∀ (p : Params) (d : DapCh) (bits : Byte) (w : Word),
    (∀ i, decode p (.packet d bits w) = .ok i ↔
      ∃ r : Nibble, i = packetInstr d r w ∧
        bits = 0x81 ||| (r.setWidth 8 <<< 1) ||| (if requestParity r then 0x20 else 0)) ∧
    ∀ r r' : Nibble, packetByte r = packetByte r' → r = r'

/-- O6. The DAP_Info payloads of R96 (R96). The length byte of a string of 255 bytes or more is cut to 8 bits: the
model's choice, log entry 13. -/
def Obligations.InfoTable : Prop :=
  ∀ p : Params,
    infoPayload p 0xF0 = [0x01, 0x01] ∧ infoPayload p 0xFE = [0x01, 0x01] ∧
    infoPayload p 0xFF = [0x02, (BitVec.ofNat 16 p.dapPktSize).extractLsb' 0 8,
      (BitVec.ofNat 16 p.dapPktSize).extractLsb' 8 8] ∧
    (∀ id : Byte, id ∉ [0x01, 0x02, 0x03, 0x04, 0x09, 0xF0, 0xFE, 0xFF] → infoPayload p id = [0x00]) ∧
    ∀ x ∈ [((0x01 : Byte), p.infoVendor), (0x02, p.infoProduct), (0x03, p.infoSerial), (0x04, p.dapVersion),
        (0x09, p.infoFwVersion)],
      infoPayload p x.1 =
        if x.2 = [] then [0x00] else BitVec.ofNat 8 (x.2.length + 1) :: (x.2 ++ [0x00])

/-- O7. RateSel gives the least divider that does not exceed the requested rate, or 256 (R150). -/
def Obligations.RateSelLeast : Prop :=
  ∀ (p : Params) (hz : Nat),
    (∀ d : Divider, p.fRef ≤ hz * dividerValue d →
      p.fRef ≤ hz * dividerValue (rateSel p hz) ∧ dividerValue (rateSel p hz) ≤ dividerValue d) ∧
    ((∀ d : Divider, ¬ p.fRef ≤ hz * dividerValue d) → rateSel p hz = .d256) ∧
    ∀ d : Divider, actualRate p d = p.fRef / dividerValue d

/-- O8. The rate table of R329 at 48 MHz (R329). -/
def Obligations.RateExamples : Prop :=
  ∀ x ∈ [(24000000, Divider.d2, 24000000), (30000000, .d2, 24000000), (0xFFFFFFFF, .d2, 24000000),
      (12000000, .d4, 12000000), (10000000, .d8, 6000000), (1000000, .d64, 750000), (750000, .d64, 750000),
      (749999, .d128, 375000), (100000, .d256, 187500), (1, .d256, 187500)],
    ∀ p : Params, p.fRef = 48000000 → rateSel p x.1 = x.2.1 ∧ actualRate p x.2.1 = x.2.2

/-- O9. A reset at any instant puts every register at its reset value, keeps LOG and appends EvReset (R45, R49, R310).
That events lie ahead of an instant is log entry 7, that the handed responses and the recorded lease waits stay log
entries 19 and 23, the batch registers outside a command log entries 11 and 24 (the model's choices). -/
def Obligations.BlockReset : Prop :=
  ∀ s : State, ∃ t, applyMove .reset s = .next t ∧
    t.owner = none ∧ t.pending = [] ∧ t.lastGrant = .ch2 ∧ t.pinMode = .hiZ ∧ t.csN = true ∧ t.resetN = true ∧
    t.powerEn = false ∧ t.sck = false ∧ t.sdo = false ∧ t.swdioOe = false ∧ t.activeDiv = divReset s.cfg ∧
    t.bootReq = false ∧ t.brTxn = false ∧ t.brDiv = divReset s.cfg ∧
    (∀ d, (t.dap d).dapState = .disconnected ∧ (t.dap d).xferFsm = .idle ∧ (t.dap d).swjDiv = divReset s.cfg ∧
      (t.dap d).idleCycles = 0 ∧ (t.dap d).retryCount = 100 ∧ (t.dap d).matchRetry = 0 ∧ (t.dap d).matchMask = 0 ∧
      (t.dap d).turnaround = 1 ∧ (t.dap d).dataPhase = false ∧ (t.dap d).batch = Batch.init) ∧
    (∀ c, (t.front c).link = .detached ∧ (t.front c).rx = none ∧ (t.front c).busy = false ∧
      (t.front c).phase = .idle ∧ (t.front c).sent = (s.front c).sent) ∧
    t.log = ⟨none, .reset⟩ :: s.log ∧ t.ahead = [] ∧ t.leaseWaits = s.leaseWaits ∧ t.cfg = s.cfg

/-- O10. The invariant holds right after reset (R310, R49). The batch registers outside a command are log entries 11
and 24 (the model's choices). -/
def Obligations.ResetInv : Prop :=
  State.reset.Inv

/-- O11. Every step keeps the invariant (R25, R37, R38, R43, R130, R134, R210). The batch registers outside a command
are log entries 11 and 24 (the model's choices). -/
def Obligations.StepKeepsInv : Prop :=
  ∀ s t : State, s.Inv → step s = .next t → t.Inv

/-- O12. From a state with the invariant no step faults or is refused (R124, R133, R136, R292). -/
def Obligations.StepNeverStops : Prop :=
  ∀ s : State, s.Inv → ∃ t, step s = .next t

/-- O13. A step runs the decoded instruction (R20, R110, R121). The list of moves is log entry 4, events held back log
entry 7, the engine's port log entry 9: the model's choices. -/
def Obligations.StepRunsDecoded : Prop :=
  (∀ (s : State) (c : Chan) (f : Frame) (i : Instr) (hold : Nat) (ms : List Move),
    s.sched = .run [c] hold :: ms → s.bootReq = false → (s.front c).rx = some f →
    decode s.cfg (.frame c f) = .ok i →
    let u := { s with sched := ms }
    (∀ v, ((s.front c).phase = .idle ∧ (s.front c).busy = false ∧ v = u.setFront c { s.front c with busy := true }) ∨
        ((s.front c).phase = .granted ∧ v = u) →
      step s = andThen (exec i v) (fun t => .next (u.holdBack c hold t)) ∧
      (hold = 0 → step s = exec i v))) ∧
  (∀ (s : State) (d : DapCh) (bits : Byte) (w : Word) (i : Instr) (ms : List Move),
    s.sched = .engine :: ms → s.bootReq = false → s.swdPort = some ⟨d, bits, w⟩ →
    decode s.cfg (.packet d bits w) = .ok i → step s = exec i { s with sched := ms })

/-- O14. A malformed frame is answered 01 on the bridge and FF on a DAP channel, and changes nothing (R81, R84, R89,
R92, R110). -/
def Obligations.MalformedFrames : Prop :=
  (∀ (p : Params) (c : Chan), ∃ e, decode p (.frame c []) = .error e) ∧
  (∀ (p : Params) (op : Byte) (rest : Frame), op.toNat = 0 ∨ 8 ≤ op.toNat →
    ∃ e, decode p (.frame .ch0 (op :: rest)) = .error e) ∧
  (∀ (p : Params) (f : Frame) (n : Nat), requiredLenBridge f = some n → f.length ≠ n ∨ p.bridgeMaxFrame < f.length →
    ∃ e, decode p (.frame .ch0 f) = .error e) ∧
  (∀ (p : Params) (d : DapCh) (id : Byte) (rest : Frame),
    10 < id.toNat ∧ id.toNat < 16 ∨ 19 < id.toNat → ∃ e, decode p (.frame d.chan (id :: rest)) = .error e) ∧
  (∀ (p : Params) (d : DapCh) (f : Frame) (i : Instr), dapFields d f = .ok i → p.dapPktSize < maxResponseLen p i →
    ∃ e, decode p (.frame d.chan f) = .error e) ∧
  (∀ (s : State) (c : Chan) (f : Frame) (e : DecodeError),
    (s.front c).phase = .idle → (s.front c).rx = some f → (s.front c).busy = false →
    decode s.cfg (.frame c f) = .error e →
    channelStep c s = .next ((s.setFront c { s.front c with busy := true }).answersKeeping c
      (if c = Chan.ch0 then [0x01] else [0xFF])))

/-- O15. A command that needs a lease another channel holds joins PENDING and changes nothing else (R125, R130, R220).
-/
def Obligations.LeaseWait : Prop :=
  ∀ (i : Instr) (s : State) (x : Chan), Instr.takesLease i = true → s.owner = some x → x ≠ Instr.chan i → Instr.chan i ∉ s.pending →
    (Instr.chan i = .ch0 → s.brTxn = false) →
    exec i s = .next ({ s with pending := s.pending ++ [Instr.chan i] }.setPhase (Instr.chan i) .waiting)

/-- O16. A command that has run returns: wrapper, release, response, free slot (R44, R121, R122, R125, R126, R129,
R220, R222, R288). That the end of a command is its channel's next step is log entry 5, events ahead of an instant log
entry 7, the batch registers after it log entries 11 and 24. -/
def Obligations.CommandEnds : Prop :=
  ∀ (s : State) (c : Chan) (resp : Option Frame) (release : Bool),
    (s.front c).phase = .ran resp release →
    (release = true → s.owner = some c ∧ c ∉ s.pending ∧ s.pending.Nodup) →
    let u := s.finishBus c
    ∃ t, channelStep c s = .next t ∧
      t.front c = { s.front c with
        rx := none
        busy := false
        phase := .idle
        sent := if (s.front c).link = .attached then resp.toList ++ (s.front c).sent else (s.front c).sent } ∧
      (∀ x, x ≠ c → t.front x =
        if release = true ∧ s.pending.head? = some x then { s.front x with phase := .granted } else s.front x) ∧
      t.owner = (if release then s.pending.head? else s.owner) ∧
      t.pending = (if release then s.pending.tail else s.pending) ∧
      t.lastGrant = (if release then s.pending.head?.getD s.lastGrant else s.lastGrant) ∧
      t.log = (if release then
          (s.pending.head?.toList.map fun x => ⟨some x, .grant x⟩) ++ gains (some c) [.release c] u.log
        else u.log) ∧
      (s.owner = some c → u.log = s.ahead.reverse ++ s.log ∧ t.ahead = []) ∧
      (s.owner ≠ some c → u = s ∧ t.ahead = s.ahead) ∧
      (∀ d : DapCh, t.dap d =
        if d.chan = c ∧ release = true then
          { s.dap d with
            xferFsm := .idle
            dapState := if (s.dap d).dapState = .transferInProgress then .idle else (s.dap d).dapState
            batch := Batch.init }
        else s.dap d) ∧
      t.csN = u.csN ∧ t.resetN = u.resetN ∧ t.powerEn = u.powerEn ∧
      t.pinMode = s.pinMode ∧ t.sck = s.sck ∧ t.sdo = s.sdo ∧ t.swdioOe = s.swdioOe ∧ t.activeDiv = s.activeDiv ∧
      t.bootReq = s.bootReq ∧ t.brTxn = s.brTxn ∧ t.brDiv = s.brDiv ∧ t.draws = s.draws ∧ t.cfg = s.cfg

/-- O17. Release logs EvRelease, frees the lease and grants the first waiting channel in the same step (R129). That a
release by any other channel is a fault is log entry 17 (the model's choice). -/
def Obligations.ReleaseGrantsNext : Prop :=
  (∀ (s : State) (c : Chan), s.owner ≠ some c → s.release c = .fault (.primitiveWithoutLease c)) ∧
  (∀ (s : State) (c : Chan), s.owner = some c → s.pending = [] →
    s.release c = .next { s with owner := none, log := gains (some c) [.release c] s.log }) ∧
  (∀ (s : State) (c x : Chan) (xs : List Chan), s.owner = some c → s.pending = x :: xs → x ∉ xs →
    s.release c = .next ({ s with
      owner := some x
      lastGrant := x
      pending := xs
      log := ⟨some x, .grant x⟩ :: ⟨some c, .release c⟩ :: s.log }.setPhase x .granted))

/-- O18. A lease timeout takes the waiting channel out of PENDING with its busy response, logs no event, and never
fires after the grant (R12, R128, R282). That the record of T_LEASE_WAIT stands in the event log of R12 and not in LOG
is the model's choice, log entry 23. -/
def Obligations.TimeoutBusy : Prop :=
  ∀ (s : State) (c : Chan), s.bootReq = false →
    (c ∈ s.pending → ∃ t, applyMove (.timeout c) s = .next t ∧
      t = { s with
        pending := s.pending.filter (· ≠ c)
        leaseWaits := ⟨c, s.cfg.tLeaseWait, s.log.length⟩ :: s.leaseWaits }.answersKeeping c
          (if c = Chan.ch0 then [0x02] else [0xFF]) ∧
      t.log = s.log ∧ t.eventLog = .leaseWait c s.cfg.tLeaseWait :: s.eventLog) ∧
    (c ∉ s.pending → applyMove (.timeout c) s = .next s)

/-- O19. Requests of one cycle enter PENDING in round-robin order from the channel after LAST_GRANT (R121, R125, R126,
R127). That channels later in the order still step in the cycle of a BOOTLOAD is log entry 25 (the model's choice). -/
def Obligations.SameCycleRoundRobin : Prop :=
  let order : Chan → List Chan
    | .ch0 => [.ch1, .ch2, .ch0]
    | .ch1 => [.ch2, .ch0, .ch1]
    | .ch2 => [.ch0, .ch1, .ch2]
  (∀ (s : State) (cs : List Chan) (hold : Nat) (o : Chan), s.owner = some o → o ∉ cs →
    (∀ c ∈ cs, c ∉ s.pending ∧ (s.front c).phase = .idle ∧ (s.front c).busy = false ∧ s.wantsLease c = true) →
    ∃ t, runCycle hold cs s = .next t ∧ t.pending = s.pending ++ (order s.lastGrant).filter (· ∈ cs) ∧
      t.owner = s.owner ∧ t.lastGrant = s.lastGrant ∧ t.log = s.log) ∧
  ∀ (s : State) (cs : List Chan) (hold : Nat) (c : Chan) (xs : List Chan), s.owner = none → s.pending = [] →
    (∀ x ∈ cs, (s.front x).phase = .idle ∧ (s.front x).busy = false ∧ s.wantsLease x = true) →
    (order s.lastGrant).filter (· ∈ cs) = c :: xs →
    ∃ t newer, runCycle hold cs s = .next t ∧ t.owner = some c ∧ t.pending = xs ∧ t.lastGrant = c ∧
      (∀ x ∈ xs, (t.front x).phase = .waiting) ∧ t.log = newer ++ ⟨some c, .grant c⟩ :: s.log ∧
      ∀ e ∈ newer, e.chan = some c ∧ ∀ x, e.kind ≠ .grant x ∧ e.kind ≠ .release x

/-- O20. PENDING holds at most two distinct channels and never the owner, and is empty after reset (R25). -/
def Obligations.PendingShape : Prop :=
  (∀ s : State, s.Inv → s.pending.Nodup ∧ s.pending.length ≤ 2 ∧ ∀ c, s.owner = some c → c ∉ s.pending) ∧
  State.reset.pending = []

/-- O21. LOG only grows, and between a grant and the next release every event of it belongs to the holder (R12, R45,
R47, R73, R126, R134). The event log of R12 as one order of LOG's events and the lease waits is log entry 23 (the
model's choice). -/
def Obligations.LeaseExclusion : Prop :=
  (∀ s : State, s.eventLog.filterMap LogEntry.event? = s.log) ∧
  (∀ s t : State, s.Inv → step s = .next t → ∃ newer, t.eventLog = newer ++ s.eventLog) ∧
  (∀ s t : State, step s = .next t → ∃ newer, t.log = newer ++ s.log) ∧
  ∀ (s : State) (newer mid older : List Event) (c : Chan), s.Inv →
    s.log = newer ++ mid ++ ⟨some c, .grant c⟩ :: older →
    (∀ e ∈ mid, e.kind ≠ .release c ∧ e.kind ≠ .reset) →
    ∀ e ∈ mid, e.chan = some c ∧ (∀ x, e.kind ≠ .grant x ∧ e.kind ≠ .release x) ∧
      (∀ tx rx, e.kind = .spi tx rx → c = .ch0) ∧
      (∀ k, e.kind = .swd k → c ≠ .ch0) ∧ ∀ oe l, e.kind = .swdio oe l → c ≠ .ch0

/-- O22. A detach ends the channel's command, closes an open transaction, resets the channel's registers and changes
no other channel's (R129, R131, R312). Events ahead of an instant are log entry 7, a granted command that runs to its
end in the step of the detach log entry 16, the batch registers log entries 11 and 24. -/
def Obligations.DetachReleases : Prop :=
  ∀ (s : State) (c : Chan), s.Inv → s.bootReq = false → (s.front c).link = .attached →
    let u := s.finishBus c
    let inTxn := decide (c = .ch0) && s.brTxn
    let released := (s.front c).phase.running || inTxn
    ∃ t, applyMove (.detach c none) s = .next t ∧
      (t.bootReq = false →
        t.front c = { s.front c with link := .detached, rx := none, busy := false, phase := .idle } ∧
        t.owner ≠ some c ∧ c ∉ t.pending ∧ (c = .ch0 → t.brTxn = false ∧ t.brDiv = divReset s.cfg) ∧
        ∀ d : DapCh, d.chan = c → t.dap d = DapRegs.reset s.cfg) ∧
      (∀ x, x ≠ c → t.front x = s.front x ∨
        (x ∈ s.pending ∧ t.owner = some x ∧ t.front x = { s.front x with phase := .granted })) ∧
      (∀ d : DapCh, d.chan ≠ c → t.dap d = s.dap d) ∧
      (c ≠ .ch0 → t.brTxn = s.brTxn ∧ t.brDiv = s.brDiv ∧ t.powerEn = u.powerEn ∧ t.bootReq = false) ∧
      t.csN = (if inTxn then true else u.csN) ∧
      ((s.front c).phase = .waiting →
        t.log = s.log ∧ t.owner = s.owner ∧ t.pending = s.pending.filter (· ≠ c) ∧ t.lastGrant = s.lastGrant ∧
        t.ahead = s.ahead) ∧
      ((s.front c).phase ≠ .granted →
        t.resetN = u.resetN ∧ t.powerEn = u.powerEn ∧ t.pinMode = s.pinMode ∧ t.sck = s.sck ∧ t.sdo = s.sdo ∧
        t.swdioOe = s.swdioOe ∧ t.activeDiv = s.activeDiv ∧ t.bootReq = false ∧ t.draws = s.draws) ∧
      ((s.front c).phase ≠ .granted → (s.front c).phase ≠ .waiting →
        t.owner = (if released then s.pending.head? else s.owner) ∧
        t.pending = (if released then s.pending.tail else s.pending) ∧
        t.lastGrant = (if released then s.pending.head?.getD s.lastGrant else s.lastGrant) ∧ t.ahead = u.ahead ∧
        t.log = if released then
            (s.pending.head?.toList.map fun x => ⟨some x, .grant x⟩) ++
              gains (some c) ((if inTxn then
                (if u.csN then [] else [.wait .csh s.cfg.tCsh]) ++ [.pin .csN true] else []) ++ [.release c]) u.log
          else u.log) ∧
      t.cfg = s.cfg ∧ t.sched = s.sched

/-- O23. Attaching changes LINK alone; a frame is received only on an attached, empty, idle channel; a detach comes
before an arrival (R120, R132, R286). -/
def Obligations.AttachAndArrive : Prop :=
  (∀ (s : State) (c : Chan), s.bootReq = false →
    applyMove (.attach c) s = .next (s.setFront c { s.front c with link := .attached })) ∧
  (∀ (s : State) (c : Chan) (f : Frame), s.bootReq = false →
    ((s.front c).link = .attached → (s.front c).rx = none → (s.front c).busy = false →
      applyMove (.arrive c f) s = .next (s.setFront c { s.front c with rx := some f })) ∧
    ((s.front c).link = .detached ∨ (s.front c).rx ≠ none ∨ (s.front c).busy = true →
      applyMove (.arrive c f) s = .next s)) ∧
  (∀ (s : State) (c : Chan) (f : Frame), (s.front c).link = .attached →
    applyMove (.detach c (some f)) s = applyMove (.detach c none) s)

/-- O24. In a quiescent state no agent of the block has a step, and the lease is free or held for an open transaction
(R299). The engine's port is log entry 9, the Pin/Bus Controller's own move log entry 7: the model's choices. -/
def Obligations.QuiescentRests : Prop :=
  ∀ s : State, s.Inv → s.Quiescent → s.bootReq = false →
    (∀ hold cs, runCycle hold cs s = .next s) ∧ (∀ n, applyMove (.bus n) s = .next s) ∧
    (∀ c, applyMove (.timeout c) s = .next s) ∧ applyMove .engine s = .next s ∧
    (s.owner = none ∨ (s.owner = some .ch0 ∧ s.brTxn = true))

/-- O25. A step of one channel changes no interpreter register and no frame of another (R23, R123, R286). -/
def Obligations.ChannelIsolation : Prop :=
  ∀ (s t : State) (c : Chan) (hold : Nat), pacedStep hold c s = .next t →
    (∀ x, x ≠ c → t.front x = s.front x ∨
      (x ∈ s.pending ∧ t.owner = some x ∧ t.front x = { s.front x with phase := .granted })) ∧
    (∀ d : DapCh, d.chan ≠ c → t.dap d = s.dap d) ∧
    (c ≠ .ch0 → t.brTxn = s.brTxn ∧ t.brDiv = s.brDiv ∧ t.bootReq = s.bootReq ∧
      ((∀ e ∈ s.ahead, ∀ l, e.kind ≠ .pin .csN l ∧ e.kind ≠ .pin .powerEn l) →
        t.powerEn = s.powerEn ∧ t.csN = s.csN)) ∧
    t.cfg = s.cfg ∧ t.sched = s.sched

/-- O26. CsWrite keeps the chip-select timing (R154). -/
def Obligations.CsWriteSequence : Prop :=
  ∀ s : State,
    (s.csN = true → s.csWrite false = { s with
      csN := false
      log := gains s.owner [.wait .csd s.cfg.tCsd, .pin .csN false, .wait .css s.cfg.tCss] s.log }) ∧
    (s.csN = false → s.csWrite true = { s with
      csN := true
      log := gains s.owner [.wait .csh s.cfg.tCsh, .pin .csN true] s.log }) ∧
    ∀ v, s.csN = v → s.csWrite v = { s with csN := v, log := gains s.owner [.pin .csN v] s.log }

/-- O27. BEGIN takes the lease, sets up SPI at BR_DIV, asserts CS_N and opens the transaction (R161). -/
def Obligations.BeginOpensTransaction : Prop :=
  (∀ s : State, s.brTxn = false → s.CanLease .ch0 →
    exec .spiBegin s = .next
      (({ s.leased .ch0 with
          sck := false
          sdo := false
          pinMode := .spi
          activeDiv := s.brDiv
          brTxn := true
          log := gains (some .ch0) [.mode .spi, .div s.brDiv] (s.leased .ch0).log }.csWrite false).answersKeeping .ch0 [0x00])) ∧
  ∀ s : State, s.brTxn = true → exec .spiBegin s = .next (s.answersKeeping .ch0 [0x04])

/-- O28. EXCHANGE clocks exactly its bytes under the transaction and answers as many (R162). -/
def Obligations.ExchangeRuns : Prop :=
  (∀ (s : State) (data : List Byte), s.brTxn = true → s.owner = some .ch0 → s.pinMode = .spi →
    ∃ (rx : List Byte) (dr : Draws), rx.length = data.length ∧
      exec (.spiExchange data) s = .next
        ({ s with
            sck := if data = [] then s.sck else false
            sdo := (data.getLast?.map fun b : Byte => b.getLsbD 0).getD s.sdo
            draws := dr
            log := gains (some .ch0) (List.zipWith EventKind.spi data rx) s.log }.answersKeeping .ch0
          (0x00 :: rx))) ∧
  ∀ (s : State) (data : List Byte), s.brTxn = false →
    exec (.spiExchange data) s = .next (s.answersKeeping .ch0 [0x03])

/-- O29. The bytes EXCHANGE answers are the MISO levels, most significant bit first (R66, R153, R162). -/
def Obligations.ExchangeReadsMiso : Prop :=
  ∀ (s : State) (data rx : List Byte) (rest : List Bool), s.brTxn = true → s.owner = some .ch0 → s.pinMode = .spi →
    rx.length = data.length →
    s.draws.miso =
      rx.flatMap (fun b => [b.getLsbD 7, b.getLsbD 6, b.getLsbD 5, b.getLsbD 4, b.getLsbD 3, b.getLsbD 2, b.getLsbD 1,
        b.getLsbD 0]) ++ rest →
    ∃ t, exec (.spiExchange data) s = .next t ∧ t.response .ch0 = some (0x00 :: rx) ∧ t.draws.miso = rest ∧
      t.log = gains (some .ch0) (List.zipWith EventKind.spi data rx) s.log

/-- O30. END deasserts CS_N, ends the transaction and releases the lease as it ends (R163). -/
def Obligations.EndClosesTransaction : Prop :=
  (∀ s : State, s.brTxn = true → s.owner = some .ch0 →
    exec .spiEnd s = .next (({ s with brTxn := false }.csWrite true).answers .ch0 [0x00])) ∧
  ∀ s : State, s.brTxn = false → exec .spiEnd s = .next (s.answersKeeping .ch0 [0x03])

/-- O31. SET_GPIO writes its pin under the lease held or one of its own (R164). -/
def Obligations.SetGpioWrites : Prop :=
  ∀ (s : State) (pin level : Byte),
    (2 < pin.toNat ∨ 1 < level.toNat → exec (.setGpio pin level) s = .next (s.answersKeeping .ch0 [0x01])) ∧
    (level.toNat ≤ 1 →
      (s.brTxn = false → exec (.setGpio 0x00 level) s = .next (s.answersKeeping .ch0 [0x03])) ∧
      (s.brTxn = true → s.owner = some .ch0 →
        exec (.setGpio 0x00 level) s = .next ((s.csWrite (level.getLsbD 0)).answersKeeping .ch0 [0x00]) ∧
        exec (.setGpio 0x01 level) s = .next
          ({ s with resetN := level.getLsbD 0, log := gains (some .ch0) [.pin .resetN (level.getLsbD 0)] s.log
            }.answersKeeping .ch0 [0x00]) ∧
        exec (.setGpio 0x02 level) s = .next
          ({ s with powerEn := level.getLsbD 0, log := gains (some .ch0) [.pin .powerEn (level.getLsbD 0)] s.log
            }.answersKeeping .ch0 [0x00])) ∧
      (s.brTxn = false → s.CanLease .ch0 →
        exec (.setGpio 0x01 level) s = .next
          ({ s.leased .ch0 with
              resetN := level.getLsbD 0
              log := gains (some .ch0) [.pin .resetN (level.getLsbD 0)] (s.leased .ch0).log }.answers .ch0 [0x00]) ∧
        exec (.setGpio 0x02 level) s = .next
          ({ s.leased .ch0 with
              powerEn := level.getLsbD 0
              log := gains (some .ch0) [.pin .powerEn (level.getLsbD 0)] (s.leased .ch0).log }.answers .ch0
            [0x00])))

/-- O32. GET_GPIO reads a pin without lease, event or change, and held bus events happen once each, in order (R34,
R45, R73, R85, R165, R325). That a command's last events may be held back is log entry 7. -/
def Obligations.GetGpioReads : Prop :=
  (∀ s : State,
    exec (.getGpio 0x00) s = .next (s.answersKeeping .ch0 [0x00, if s.csN then 0x01 else 0x00]) ∧
    exec (.getGpio 0x01) s = .next (s.answersKeeping .ch0 [0x00, if s.resetN then 0x01 else 0x00]) ∧
    exec (.getGpio 0x02) s = .next (s.answersKeeping .ch0 [0x00, if s.powerEn then 0x01 else 0x00]) ∧
    (∀ b bs, s.draws.cdone = b :: bs →
      exec (.getGpio 0x03) s = .next
        ({ s with draws := { s.draws with cdone := bs } }.answersKeeping .ch0 [0x00, if b then 0x01 else 0x00])) ∧
    (∃ (v : Bool) (dr : Draws), exec (.getGpio 0x03) s = .next
        ({ s with draws := dr }.answersKeeping .ch0 [0x00, if v then 0x01 else 0x00])) ∧
    ∀ pin : Byte, 3 < pin.toNat → exec (.getGpio pin) s = .next (s.answersKeeping .ch0 [0x01])) ∧
  (∀ (s : State) (n : Nat), s.bootReq = false →
    ∃ t, applyMove (.bus n) s = .next t ∧
      t = { s with
        csN := t.csN, resetN := t.resetN, powerEn := t.powerEn
        log := (s.ahead.take n).reverse ++ s.log, ahead := s.ahead.drop n } ∧
      ∀ p : OutPin, t.outReg p =
        ((s.ahead.take n).filterMap fun e =>
          if e.kind = .pin (outPin p) true then some true
          else if e.kind = .pin (outPin p) false then some false
          else none).getLast?.getD (s.outReg p)) ∧
  ∀ (s t : State) (i : Instr) (hold : Nat), exec i s = .next t → s.ahead = [] →
    let u := s.holdBack (Instr.chan i) hold t
    u.settled = t ∧ u.ahead.length ≤ hold ∧ t.log = u.ahead.reverse ++ u.log ∧ ∃ newer, u.log = newer ++ s.log

/-- O33. SET_CLOCK selects BR_DIV for the next transaction and answers the actual rate (R166). The rate is emitted
modulo 2^32, which matters only for F_REF of 2^33 Hz or more: the model's choice, log entry 13. -/
def Obligations.SetClockSelects : Prop :=
  ∀ (s : State) (hz : Word),
    (hz ≠ 0 → exec (.setClock hz) s = .next
      ({ s with brDiv := rateSel s.cfg hz.toNat }.answersKeeping .ch0
        (0x00 :: le32 (BitVec.ofNat 32 (s.cfg.fRef / dividerValue (rateSel s.cfg hz.toNat)))))) ∧
    (hz = 0 → exec (.setClock hz) s = .next (s.answersKeeping .ch0 [0x01]))

/-- O34. BOOTLOAD answers first, then raises BOOT_REQ, and the block leaves service until a reset (R36, R167, R298,
R311). That arrivals, attaches, detaches and timeouts have no effect while BOOT_REQ is 1 is log entry 6. -/
def Obligations.BootloadLeavesService : Prop :=
  (∀ s t : State, (s.brTxn = true ∧ s.owner = some .ch0 ∧ t = s) ∨
      (s.brTxn = false ∧ s.CanLease .ch0 ∧ t = s.leased .ch0) →
    exec .bootload s = .next { t with
      front0 := { t.front0 with
        rx := none
        busy := false
        phase := .idle
        sent := if t.front0.link = .attached then [0x00] :: t.front0.sent else t.front0.sent }
      bootReq := true
      log := gains (some .ch0) [.boot] t.log }) ∧
  ∀ (s : State) (m : Move), s.bootReq = true → m ≠ .reset → applyMove m s = .next s

/-- O35. BEGIN, EXCHANGE of k bytes and END put exactly one chip-select-framed byte sequence on the wire (R157). -/
def Obligations.TransactionOnTheWire : Prop :=
  ∀ (s : State) (data : List Byte), s.Inv → s.brTxn = false → s.owner = none → (s.front .ch0).phase = .idle →
    ∃ (t1 t2 t3 t4 t5 t6 : State) (rx : List Byte),
      exec .spiBegin s = .next t1 ∧ t1.response .ch0 = some [0x00] ∧ t1.endCommand .ch0 = .next t2 ∧
      exec (.spiExchange data) t2 = .next t3 ∧ t3.response .ch0 = some (0x00 :: rx) ∧ t3.endCommand .ch0 = .next t4 ∧
      exec .spiEnd t4 = .next t5 ∧ t5.response .ch0 = some [0x00] ∧ t5.endCommand .ch0 = .next t6 ∧
      rx.length = data.length ∧ t6.owner = none ∧ t6.brTxn = false ∧ t6.csN = true ∧
      t6.log = gains (some .ch0)
        ([.grant .ch0, .mode .spi, .div s.brDiv, .wait .csd s.cfg.tCsd, .pin .csN false, .wait .css s.cfg.tCss] ++
          List.zipWith EventKind.spi data rx ++ [.wait .csh s.cfg.tCsh, .pin .csN true, .release .ch0]) s.log

/-- O36. One SWD transfer puts exactly the packet of R197 on the wire and answers its result (R102, R104, R196, R197,
R199, R201, R202). -/
def Obligations.SwdPacketOnTheWire : Prop :=
  ∀ (s : State) (d : DapCh) (r : Nibble) (w : Word) (bs rest : List Bool),
    PacketBits r bs → s.draws.swdio = bs ++ rest →
    swdXfer d r w s = (packetResult r bs, s.afterWire (packetEvents (s.dap d) r w bs) rest)

/-- O37. Each of the four packet rows runs one SWD transfer for the lease holder in SWD mode (R102, R133, R197, R210).
The port is log entry 9; that a packet outside PINMODE SWD is the fault wrongPinMode is log entry 17 (the model's
choices). -/
def Obligations.PacketRowsRun : Prop :=
  ∀ (s : State) (d : DapCh) (a : BitVec 2) (w : Word),
    ∀ x ∈ [(Instr.swdDpWrite d a w, swdNibble false false a, w), (.swdApWrite d a w, swdNibble true false a, w),
        (.swdDpRead d a, swdNibble false true a, 0), (.swdApRead d a, swdNibble true true a, 0)],
      (s.owner ≠ some d.chan → exec x.1 s = .fault (.primitiveWithoutLease d.chan)) ∧
      (s.owner = some d.chan → s.pinMode ≠ .swd → exec x.1 s = .fault (.wrongPinMode d.chan)) ∧
      (s.owner = some d.chan → s.pinMode = .swd →
        (∃ (res : SwdResp) (log : List Event) (dr : Draws),
          exec x.1 s = .next { s with
            sck := true, sdo := true, swdioOe := true, log := log ++ s.log, draws := dr
            swdPort := none, swdResult := some res }) ∧
        ∀ bs rest, PacketBits x.2.1 bs → s.draws.swdio = bs ++ rest →
          exec x.1 s = .next { s.afterWire (packetEvents (s.dap d) x.2.1 x.2.2 bs) rest with
            swdPort := none, swdResult := some (packetResult x.2.1 bs) })

/-- O38. Every path of an SWD transfer ends with SetSwdio(1, 1), with SWCLK and SWDIO driven high (R212). -/
def Obligations.ExitLevels : Prop :=
  ∀ (s : State) (d : DapCh) (r : Nibble) (w : Word),
    (swdXfer d r w s).2.sck = true ∧ (swdXfer d r w s).2.sdo = true ∧ (swdXfer d r w s).2.swdioOe = true ∧
    (swdXfer d r w s).2.log.head? = some ⟨s.owner, .swdio true true⟩

/-- O39. The number of SWCLK cycles of one SWD transfer is the one R200 gives for its path (R200). -/
def Obligations.CycleCounts : Prop :=
  ∀ (s : State) (d : DapCh) (r : Nibble) (w : Word),
    swdCycles (swdXfer d r w s).2.log = swdCycles s.log +
      (if (swdXfer d r w s).1.ack = 0x01 ∨ (swdXfer d r w s).1.ack = 0x08 then
        8 + (s.dap d).turnaround + 3 + 33 + (s.dap d).turnaround + (s.dap d).idleCycles.toNat
      else if (swdXfer d r w s).1.ack = 0x02 ∨ (swdXfer d r w s).1.ack = 0x04 then
        8 + (s.dap d).turnaround + 3 + (s.dap d).turnaround + (if (s.dap d).dataPhase then 33 else 0)
      else 8 + (s.dap d).turnaround + 3 + (s.dap d).turnaround + 33)

/-- O40. An OK read is surfaced as OK exactly when its parity bit agrees (R195, R199, R208). -/
def Obligations.ParityNeverOk : Prop :=
  (∀ v : Word, xor32 v = decide ((List.range 32).countP (fun i => v.getLsbD i) % 2 = 1)) ∧
  xor32 0x00000000 = false ∧ xor32 0x00000001 = true ∧ xor32 0x2BA01477 = false ∧ xor32 0xFFFFFFFF = false ∧
  xor32 0x80000000 = true ∧
  ∀ (s : State) (d : DapCh) (r : Nibble) (v : Word) (q : Bool) (rest : List Bool), r.getLsbD 1 = true →
    s.draws.swdio = [true, false, false] ++ bitsOf v ++ [q] ++ rest →
    (swdXfer d r 0 s).1.rdata = v ∧
    ((swdXfer d r 0 s).1.ack = 0x01 ↔ q = xor32 v) ∧ ((swdXfer d r 0 s).1.ack = 0x08 ↔ q ≠ xor32 v) ∧
    ∀ i : Fin 32, xor32 (v ^^^ (1#32 <<< i.val)) = !xor32 v

/-- O41. A WAIT is retried exactly as often as the budget allows (R207). -/
def Obligations.RetryBudget : Prop :=
  ∀ (s : State) (d : DapCh) (r : Nibble) (w v : Word) (n : Nat) (rest : List Bool),
    let budget := (s.dap d).retryCount.toNat
    let last := if r.getLsbD 1 then okRead v else okWrite
    let x := swdXferRetry d r w s
    s.draws.swdio = (List.replicate n waitBits).flatten ++ last ++ rest →
    (n ≤ budget → x.1 = ⟨ackOk, if r.getLsbD 1 then v else 0⟩ ∧ x.2.draws.swdio = rest ∧
      (x.2.dap d).xferFsm = .idle ∧ (x.2.dap d).batch.retryLeft = budget - n ∧
      x.2.log = gains s.owner ((List.replicate n (packetEvents (s.dap d) r w waitBits)).flatten ++
        packetEvents (s.dap d) r w last) s.log) ∧
    (budget < n → x.1 = ⟨ackWait, 0⟩ ∧
      x.2.draws.swdio = (List.replicate (n - (budget + 1)) waitBits).flatten ++ last ++ rest ∧
      (x.2.dap d).xferFsm = .faulted ∧
      x.2.log = gains s.owner (List.replicate (budget + 1) (packetEvents (s.dap d) r w waitBits)).flatten s.log)

/-- O42. The start of a bus command sets up the pins unless they are in SWD mode, and latches SWJ_DIV (R190, R221). -/
def Obligations.BusStart : Prop :=
  ∀ (s : State) (d : DapCh),
    (s.pinMode = .swd → s.busStart d = { s with
      activeDiv := (s.dap d).swjDiv, log := gains s.owner [.div (s.dap d).swjDiv] s.log }) ∧
    (s.pinMode ≠ .swd → s.busStart d = { s with
      sck := true
      sdo := true
      swdioOe := true
      pinMode := .swd
      activeDiv := (s.dap d).swjDiv
      log := gains s.owner [.mode .swd, .swdio true true, .div (s.dap d).swjDiv] s.log })

/-- O43. DAP_Info, DAP_HostStatus and DAP_TransferAbort change no register (R224, R225, R262). -/
def Obligations.InformationCommands : Prop :=
  ∀ (s : State) (d : DapCh),
    (s.CanLease d.chan →
      (∀ id, exec (.dapInfo d id) s = .next ((s.leased d.chan).answers d.chan (0x00 :: infoPayload s.cfg id))) ∧
      ∀ type status, exec (.dapHostStatus d type status) s = .next
        ((s.leased d.chan).answers d.chan [0x01, 0x00])) ∧
    exec (.dapTransferAbort d) s = .next (s.respond d.chan none false)

/-- O44. DAP_Connect enters SWD or answers unsupported; DAP_Disconnect releases the shared pins that SWD holds (R226,
R227). -/
def Obligations.ConnectAndDisconnect : Prop :=
  ∀ (s : State) (d : DapCh), s.CanLease d.chan →
    (∀ port : Byte, port.toNat ≤ 1 → exec (.dapConnect d port) s = .next
      (({ s.leased d.chan with
          sck := true
          sdo := true
          swdioOe := true
          pinMode := .swd
          activeDiv := (s.dap d).swjDiv
          log := gains (some d.chan) [.mode .swd, .swdio true true, .div (s.dap d).swjDiv] (s.leased d.chan).log
        }.setDap d { s.dap d with dapState := .idle }).answers d.chan [0x02, 0x01])) ∧
    (∀ port : Byte, 1 < port.toNat → exec (.dapConnect d port) s = .next
      ((s.leased d.chan).answers d.chan [0x02, 0x00])) ∧
    (s.pinMode = .swd → exec (.dapDisconnect d) s = .next
      (({ s.leased d.chan with
          swdioOe := false
          pinMode := .hiZ
          log := gains (some d.chan) [.mode .hiZ] (s.leased d.chan).log
        }.setDap d { s.dap d with dapState := .disconnected }).answers d.chan [0x03, 0x00])) ∧
    (s.pinMode ≠ .swd → exec (.dapDisconnect d) s = .next
      (((s.leased d.chan).setDap d { s.dap d with dapState := .disconnected }).answers d.chan [0x03, 0x00]))

/-- O45. The configuration commands write their registers and nothing else (R228, R269, R270). -/
def Obligations.ConfigurationCommands : Prop :=
  ∀ (s : State) (d : DapCh), s.CanLease d.chan →
    (∀ (idle : Byte) (w m : Half), exec (.dapTransferConfigure d idle w m) s = .next
      (((s.leased d.chan).setDap d { s.dap d with idleCycles := idle, retryCount := w, matchRetry := m }).answers d.chan [0x04, 0x00])) ∧
    (∀ config : Byte, exec (.dapSwdConfigure d config) s = .next
      (((s.leased d.chan).setDap d
        { s.dap d with turnaround := config.toNat % 4 + 1, dataPhase := config.getLsbD 2 }).answers d.chan
        [0x13, 0x00])) ∧
    (∀ hz : Word, hz ≠ 0 → exec (.dapSwjClock d hz) s = .next
      (((s.leased d.chan).setDap d { s.dap d with swjDiv := rateSel s.cfg hz.toNat }).answers d.chan
        [0x11, 0x00])) ∧
    exec (.dapSwjClock d 0) s = .next ((s.leased d.chan).answers d.chan [0x11, 0xFF])

/-- O46. DAP_Delay logs its wait; DAP_ResetTarget pulses RESET_N (R265, R266). -/
def Obligations.DelayAndResetTarget : Prop :=
  ∀ (s : State) (d : DapCh), s.CanLease d.chan →
    (∀ us : Half, exec (.dapDelay d us) s = .next
      ({ s.leased d.chan with
          log := gains (some d.chan) [.wait .delay us.toNat] (s.leased d.chan).log }.answers d.chan [0x09, 0x00])) ∧
    exec (.dapResetTarget d) s = .next
      ({ s.leased d.chan with
          resetN := true
          log := gains (some d.chan) [.pin .resetN false, .wait .rst s.cfg.tRstPulse, .pin .resetN true]
            (s.leased d.chan).log }.answers d.chan [0x0A, 0x00, 0x01])

/-- O47. On a channel that is not connected the transfer commands answer at once and touch no register (R239, R248,
R249, R264, R271, R273). -/
def Obligations.NotConnectedAnswers : Prop :=
  ∀ (s : State) (d : DapCh), s.CanLease d.chan →
    ((s.dap d).dapState = .disconnected →
      (∀ idx reqs, exec (.dapTransfer d idx reqs) s = .next ((s.leased d.chan).answers d.chan [0x05, 0x00, 0x00])) ∧
      (∀ idx count req data, exec (.dapTransferBlock d idx count req data) s = .next
        ((s.leased d.chan).answers d.chan [0x06, 0x00, 0x00, 0x00])) ∧
      (∀ idx a, exec (.dapWriteAbort d idx a) s = .next ((s.leased d.chan).answers d.chan [0x08, 0xFF])) ∧
      ∀ count data, exec (.dapSwjSequence d count data) s = .next
        ((s.leased d.chan).answers d.chan [0x12, 0xFF])) ∧
    ∀ idx req data, exec (.dapTransferBlock d idx 0 req data) s = .next
      ((s.leased d.chan).answers d.chan [0x06, 0x00, 0x00, 0x00])

/-- O48. DAP_WriteABORT sends one ABORT packet and ignores its ACK (R221, R264). -/
def Obligations.WriteAbortSendsOnePacket : Prop :=
  ∀ (s : State) (d : DapCh) (idx : Byte) (a : Word) (s0 s1 s2 : Bool) (rest : List Bool), s.CanLease d.chan →
    (s.dap d).dapState ≠ .disconnected → s.draws.swdio = [s0, s1, s2] ++ rest →
    exec (.dapWriteAbort d idx a) s = .next
      ((((s.leased d.chan).busStart d).afterWire (packetEvents (s.dap d) 0x0 a [s0, s1, s2]) rest).answers d.chan
        [0x08, 0x00])

/-- O49. DAP_SWJ_Sequence clocks exactly its bits and answers after the last (R206). -/
def Obligations.SwjSequenceExact : Prop :=
  ∀ (s : State) (d : DapCh) (count : Byte) (data : List Byte), s.CanLease d.chan →
    (s.dap d).dapState ≠ .disconnected →
    let n := if count = 0 then 256 else count.toNat
    let bits := (List.range n).map fun i => (data.getD (i / 8) 0).getLsbD (i % 8)
    let u := (s.leased d.chan).busStart d
    exec (.dapSwjSequence d count data) s = .next
      ({ u with
          sck := true
          swdioOe := true
          sdo := bits.getLast?.getD false
          log := gains (some d.chan) (.swdio true u.sdo :: drives bits) u.log }.answers d.chan [0x12, 0x00]) ∧
    swdCycles (gains (some d.chan) (.swdio true u.sdo :: drives bits) u.log) = swdCycles s.log + n ∧
    u.activeDiv = (s.dap d).swjDiv

/-- O50. DAP_SWJ_Pins writes the selected pins, waits at most the bound and answers the levels (R34, R99, R221, R267,
R268). The wait on a driven pin with another level is log entry 8, a draw above the bound log entry 21. -/
def Obligations.SwjPinsDrivesAndReads : Prop :=
  ∀ (s : State) (d : DapCh) (output select : Byte) (wait : Word), s.CanLease d.chan →
    let clk := (s.dap d).dapState ≠ .disconnected ∧ select.getLsbD 0 = true
    let dio := (s.dap d).dapState ≠ .disconnected ∧ select.getLsbD 1 = true
    let rst := select.getLsbD 7 = true
    let b := if clk ∨ dio then (s.leased d.chan).busStart d else s.leased d.chan
    let u : State := { b with
      sck := if clk then output.getLsbD 0 else b.sck
      swdioOe := if dio then true else b.swdioOe
      sdo := if dio then output.getLsbD 1 else b.sdo
      resetN := if rst then output.getLsbD 7 else b.resetN
      log := gains (some d.chan)
        ((if clk then [.pin .sck (output.getLsbD 0)] else []) ++
          (if dio then [.swdio true (output.getLsbD 1)] else []) ++
          (if rst then [.pin .resetN (output.getLsbD 7)] else [])) b.log }
    let sckDriven := u.pinMode ≠ .hiZ
    let dioDriven := u.pinMode = .spi ∨ (u.pinMode = .swd ∧ u.swdioOe = true)
    let blocked := (select.getLsbD 0 = true ∧ sckDriven ∧ u.sck ≠ output.getLsbD 0) ∨
      (select.getLsbD 1 = true ∧ dioDriven ∧ u.sdo ≠ output.getLsbD 1) ∨ (rst ∧ u.resetN ≠ output.getLsbD 7)
    let undriven := (select.getLsbD 0 = true ∧ ¬ sckDriven) ∨ (select.getLsbD 1 = true ∧ ¬ dioDriven)
    ∃ v : State,
      (wait = 0 → v = u) ∧
      (wait ≠ 0 → ∃ (e : Nat) (dr : Draws),
        v = { u with draws := dr, log := gains (some d.chan) [.wait .pinwait e] u.log } ∧
        e ≤ min wait.toNat 3000000 ∧
        (blocked → e = min wait.toNat 3000000 ∧ dr = u.draws) ∧
        (¬ blocked → ¬ undriven → e = 0 ∧ dr = u.draws) ∧
        (¬ blocked → undriven → ∀ x xs, u.draws.elapsed = x :: xs →
          e = min x (min wait.toNat 3000000) ∧ dr = { u.draws with elapsed := xs })) ∧
      let x := v.readPin .sck
      let y := x.2.readPin .mosi
      exec (.dapSwjPins d output select wait) s = .next (y.2.answers d.chan [0x10,
        (if x.1 then 0x01 else 0x00) ||| (if y.1 then 0x02 else 0x00) ||| (if u.resetN then 0x80 else 0x00)]) ∧
      (sckDriven → x = (u.sck, v)) ∧ (dioDriven → y = (u.sdo, x.2)) ∧
      (¬ sckDriven → ∀ q qs, v.draws.sck = q :: qs → x = (q, { v with draws := { v.draws with sck := qs } })) ∧
      (¬ dioDriven → ∀ q qs, x.2.draws.swdio = q :: qs →
        y = (q, { x.2 with draws := { x.2.draws with swdio := qs } })) ∧
      y.2 = { v with draws := y.2.draws }

/-- O51. DAP_Transfer and DAP_TransferBlock on a connected channel always complete with a well-shaped response (R222,
R231, R234, R240, R245, R250). -/
def Obligations.TransfersComplete : Prop :=
  ∀ (s : State) (d : DapCh) (idx : Byte), s.CanLease d.chan → (s.dap d).dapState ≠ .disconnected →
    (∀ reqs : List XferReq, reqs.length < 256 →
      ∃ (t : State) (n : Nat) (value : Byte) (words : List Word),
        exec (.dapTransfer d idx reqs) s = .next t ∧
        t.response d.chan = some (0x05 :: BitVec.ofNat 8 n :: value :: words.flatMap le32) ∧
        n ≤ reqs.length ∧ words.length ≤ (reqs.countP fun q => q.req.getLsbD 1 && !q.req.getLsbD 4) ∧
        (value = 0x01 → n = reqs.length) ∧
        (reqs = [] → value = 0x00 ∧ t.log = ((s.leased d.chan).busStart d).log ∧ t.draws = s.draws) ∧
        SameButTransfer d (s.leased d.chan) t ∧ (t.dap d).dapState = .transferInProgress ∧
        ∃ newer, t.log = newer ++ (s.leased d.chan).log) ∧
    ∀ (count : Half) (req : Byte) (data : List Word), count ≠ 0 → (req.getLsbD 1 = false → data.length = count.toNat) →
      ∃ (t : State) (n : Nat) (value : Byte) (words : List Word),
        exec (.dapTransferBlock d idx count req data) s = .next t ∧
        t.response d.chan = some (0x06 :: le16 (BitVec.ofNat 16 n) ++ value :: words.flatMap le32) ∧
        n ≤ count.toNat ∧ (words.length = if req.getLsbD 1 then n else 0) ∧ (value = 0x01 → n = count.toNat) ∧
        SameButTransfer d (s.leased d.chan) t ∧ (t.dap d).dapState = .transferInProgress ∧
        (t.dap d).matchMask = (s.dap d).matchMask ∧ ∃ newer, t.log = newer ++ (s.leased d.chan).log

/-- O52. A response never exceeds the length the size check allowed for it (R89, R222, R276). -/
def Obligations.ResponsesFit : Prop :=
  ∀ (s t : State) (d : DapCh) (i : Instr) (f : Frame), Instr.chan i = d.chan →
    s.response d.chan = none → exec i s = .next t → t.response d.chan = some f → wellFormed s.cfg i = true →
    f.length ≤ maxResponseLen s.cfg i ∧ f.length ≤ s.cfg.dapPktSize

/-- O53. DAP_Transfer of one DP read succeeds if and only if the WAITs stay within the retry budget (R275). -/
def Obligations.ReadRetryBudget : Prop :=
  ∀ (s : State) (d : DapCh) (idx : Byte) (high : BitVec 3) (a : BitVec 2) (v : Word) (n : Nat) (rest : List Bool), s.CanLease d.chan →
    (s.dap d).dapState ≠ .disconnected →
    s.draws.swdio = (List.replicate n waitBits).flatten ++ okRead v ++ rest →
    let budget := (s.dap d).retryCount.toNat
    let r := swdNibble false true a
    let wire := packetEvents (s.dap d) r 0
    let u := (s.leased d.chan).busStart d
    ∃ t, exec (.dapTransfer d idx [⟨high ++ 0#1 ++ r, none⟩]) s = .next t ∧
      (n ≤ budget → t.response d.chan = some ([0x05, 0x01, 0x01] ++ le32 v) ∧ t.draws.swdio = rest ∧
        t.log = gains (some d.chan) ((List.replicate n (wire waitBits)).flatten ++ wire (okRead v)) u.log) ∧
      (budget < n → t.response d.chan = some [0x05, 0x00, 0x02] ∧
        t.log = gains (some d.chan) (List.replicate (budget + 1) (wire waitBits)).flatten u.log)

/-- O54. A batch of reads, writes, mask writes and value-match reads makes exactly the accesses of R231 to R238 (R93,
R105, R229, R231, R232, R233, R235, R236, R237, R238, R319). -/
def Obligations.PostedReadsPipelined : Prop :=
  (∀ (s : State) (d : DapCh) (idx : Byte) (reqs : List XferReq) (vs : List Word) (rest : List Bool),
    s.CanLease d.chan → (s.dap d).dapState ≠ .disconnected → reqs ≠ [] → reqs.length < 256 →
    let plan := accessPlan (s.dap d).matchMask false false reqs
    let runs := List.zip plan vs
    vs.length = plan.length → (∀ x ∈ runs, x.1.accepts x.2) →
    s.draws.swdio = (runs.flatMap fun x => x.1.answerBits x.2) ++ rest →
    ∃ t, exec (.dapTransfer d idx reqs) s = .next t ∧
      t.response d.chan = some (0x05 :: BitVec.ofNat 8 reqs.length :: 0x01 ::
        (runs.filter fun x => x.1.emits).flatMap fun x => le32 x.2) ∧
      t.draws.swdio = rest ∧ (t.dap d).matchMask = lastMask (s.dap d).matchMask reqs ∧
      t.log = gains (some d.chan)
        (runs.flatMap fun x => packetEvents (s.dap d) x.1.nibble x.1.wdata (x.1.answerBits x.2))
        ((s.leased d.chan).busStart d).log) ∧
  ∀ (s : State) (d : DapCh) (idx : Byte) (as : List (BitVec 3 × BitVec 2)) (stale : Word) (vs : List Word)
      (rest : List Bool),
    s.CanLease d.chan → (s.dap d).dapState ≠ .disconnected → as ≠ [] → as.length < 256 → vs.length = as.length →
    s.draws.swdio = (stale :: vs).flatMap okRead ++ rest →
    ∃ t, exec (.dapTransfer d idx (as.map fun a => ⟨a.1 ++ 0#1 ++ swdNibble true true a.2, none⟩)) s = .next t ∧
      t.response d.chan = some (0x05 :: BitVec.ofNat 8 as.length :: 0x01 :: vs.flatMap le32) ∧
      t.draws.swdio = rest ∧
      t.log = gains (some d.chan)
        ((List.zip ((as.map fun a => swdNibble true true a.2) ++ [0xE]) (stale :: vs)).flatMap fun x =>
          packetEvents (s.dap d) x.1 0 (okRead x.2)) ((s.leased d.chan).busStart d).log

/-- O55. A batch of writes is confirmed by one RDBUFF read whose result is the value byte (R75, R231, R235, R238).
That the RDBUFF read reports the value byte 0x00 after the ACK 0b000 is log entry 26 (the model's choice). -/
def Obligations.WritesConfirmed : Prop :=
  ∀ (s : State) (d : DapCh) (idx : Byte) (ws : List ((BitVec 2 × BitVec 1) × Bool × BitVec 2 × Word)) (bs rest : List Bool), s.CanLease d.chan →
    (s.dap d).dapState ≠ .disconnected → ws ≠ [] → ws.length < 256 → PacketBits 0xE bs →
    (ackOf (bs.take 3) = ackWait → (s.dap d).retryCount = 0) →
    s.draws.swdio = (List.replicate ws.length okWrite).flatten ++ bs ++ rest →
    ∃ t, exec (.dapTransfer d idx (ws.map fun x =>
        ⟨x.1.1 ++ 0#1 ++ x.1.2 ++ swdNibble x.2.1 false x.2.2.1, some x.2.2.2⟩)) s = .next t ∧
      t.response d.chan = some [0x05, BitVec.ofNat 8 ws.length, (packetResult 0xE bs).ack] ∧
      t.draws.swdio = rest ∧
      t.log = gains (some d.chan)
        ((ws.flatMap fun x => packetEvents (s.dap d) (swdNibble x.2.1 false x.2.2.1) x.2.2.2 okWrite) ++
          packetEvents (s.dap d) 0xE 0 bs) ((s.leased d.chan).busStart d).log

/-- O56. A match-mask write moves no wire; a value-match read reads until the masked value matches or the budget ends
(R231, R236, R237). -/
def Obligations.MaskAndMatch : Prop :=
  ∀ (s : State) (d : DapCh) (idx : Byte), s.CanLease d.chan → (s.dap d).dapState ≠ .disconnected →
    (∀ (req : Byte) (w : Word), req.getLsbD 1 = false → req.getLsbD 5 = true →
      ∃ t, exec (.dapTransfer d idx [⟨req, some w⟩]) s = .next t ∧
        t.response d.chan = some [0x05, 0x01, 0x01] ∧ (t.dap d).matchMask = w ∧
        t.log = ((s.leased d.chan).busStart d).log ∧ t.draws = s.draws) ∧
    ∀ (ap : Bool) (a : BitVec 2) (m post : Word) (ws : List Word) (rest : List Bool),
      let r := swdNibble ap true a
      let words := (if ap then [post] else []) ++ ws
      s.draws.swdio = words.flatMap okRead ++ rest →
      (∀ x ∈ ws.dropLast, x &&& (s.dap d).matchMask ≠ m) → ws ≠ [] → ws.length ≤ (s.dap d).matchRetry.toNat + 1 →
      (ws.getLast?.map (· &&& (s.dap d).matchMask) ≠ some m → ws.length = (s.dap d).matchRetry.toNat + 1) →
      ∃ t, exec (.dapTransfer d idx [⟨r.setWidth 8 ||| 0x10, some m⟩]) s = .next t ∧
        t.response d.chan =
          some (if ws.getLast?.map (· &&& (s.dap d).matchMask) = some m then [0x05, 0x01, 0x01]
            else [0x05, 0x00, 0x11]) ∧
        t.draws.swdio = rest ∧
        t.log = gains (some d.chan) (words.flatMap fun v => packetEvents (s.dap d) r 0 (okRead v))
          ((s.leased d.chan).busStart d).log

/-- O57. The first request that does not end OK ends the batch, and the requests after it have no effect (R231, R234,
R284). That an attempted transfer with the ACK 0b000 reports the value byte 0x00 is log entry 26 (the model's choice).
-/
def Obligations.FailureEndsBatch : Prop :=
  ∀ (s : State) (d : DapCh) (idx : Byte) (before after : List XferReq) (q : XferReq), s.CanLease d.chan →
    (s.dap d).dapState ≠ .disconnected →
    let u := transferLoop d before (batchStart d (s.leased d.chan))
    let x := oneRequest d q u
    (before = [] ∨ u.respValue d = ackOk) → x.respValue d ≠ ackOk →
    exec (.dapTransfer d idx (before ++ q :: after)) s = exec (.dapTransfer d idx (before ++ [q])) s ∧
    ∃ t words, exec (.dapTransfer d idx (before ++ q :: after)) s = .next t ∧ t.log = x.log ∧ t.draws = x.draws ∧
      (t.dap d).matchMask = (x.dap d).matchMask ∧
      t.response d.chan = some (0x05 :: BitVec.ofNat 8 before.length :: x.respValue d :: words)

/-- O58. A block read makes M accesses on the DP and M + 1 on the AP, the last by RDBUFF (R247). -/
def Obligations.BlockReadPipeline : Prop :=
  ∀ (s : State) (d : DapCh) (idx : Byte) (count : Half) (ap : Bool) (a : BitVec 2) (high : BitVec 4) (stale : Word)
      (vs : List Word) (rest : List Bool), s.CanLease d.chan → (s.dap d).dapState ≠ .disconnected → count ≠ 0 →
    vs.length = count.toNat →
    let r := swdNibble ap true a
    let words := (if ap then [stale] else []) ++ vs
    let nibbles := List.replicate count.toNat r ++ (if ap then [0xE] else [])
    s.draws.swdio = words.flatMap okRead ++ rest →
    ∃ t, exec (.dapTransferBlock d idx count (high ++ r) []) s = .next t ∧
      t.response d.chan = some (0x06 :: le16 count ++ 0x01 :: vs.flatMap le32) ∧ t.draws.swdio = rest ∧
      t.log = gains (some d.chan)
        ((List.zip nibbles words).flatMap fun x => packetEvents (s.dap d) x.1 0 (okRead x.2))
        ((s.leased d.chan).busStart d).log

/-- O59. A block write is confirmed by one RDBUFF read, whose ACK is the value with the full count (R246). That the
RDBUFF read reports the value byte 0x00 after the ACK 0b000 is log entry 26 (the model's choice). -/
def Obligations.BlockWriteConfirmed : Prop :=
  ∀ (s : State) (d : DapCh) (idx : Byte) (count : Half) (ap : Bool) (a : BitVec 2) (high : BitVec 4) (ws : List Word)
      (bs rest : List Bool), s.CanLease d.chan → (s.dap d).dapState ≠ .disconnected → count ≠ 0 →
    ws.length = count.toNat → PacketBits 0xE bs → (ackOf (bs.take 3) = ackWait → (s.dap d).retryCount = 0) →
    let r := swdNibble ap false a
    s.draws.swdio = (List.replicate ws.length okWrite).flatten ++ bs ++ rest →
    ∃ t, exec (.dapTransferBlock d idx count (high ++ r) ws) s = .next t ∧
      t.response d.chan = some (0x06 :: le16 count ++ [(packetResult 0xE bs).ack]) ∧ t.draws.swdio = rest ∧
      t.log = gains (some d.chan)
        ((ws.flatMap fun w => packetEvents (s.dap d) r w okWrite) ++ packetEvents (s.dap d) 0xE 0 bs)
        ((s.leased d.chan).busStart d).log

/-- O60. A block whose element j fails reports exactly j completed elements and the cause (R245, R250). That an
attempted transfer with the ACK 0b000 reports the value byte 0x00 is log entry 26 (the model's choice). -/
def Obligations.BlockFaultPosition : Prop :=
  ∀ (s : State) (d : DapCh) (idx : Byte) (count : Half) (ap : Bool) (a : BitVec 2) (high : BitVec 4) (j : Nat)
      (bs rest : List Bool) (cause : Byte), s.CanLease d.chan → (s.dap d).dapState ≠ .disconnected → j < count.toNat →
    (∀ ws : List Word, ws.length = count.toNat → FailedAccess (s.dap d) (swdNibble ap false a) bs cause →
      s.draws.swdio = (List.replicate j okWrite).flatten ++ bs ++ rest →
      ∃ t, exec (.dapTransferBlock d idx count (high ++ swdNibble ap false a) ws) s = .next t ∧
        t.response d.chan = some (0x06 :: le16 (BitVec.ofNat 16 j) ++ [cause]) ∧ t.draws.swdio = rest ∧
        (t.dap d).xferFsm = .faulted) ∧
    (∀ (stale : Word) (vs : List Word), vs.length = j → FailedAccess (s.dap d) (swdNibble ap true a) bs cause →
      s.draws.swdio = ((if ap then [stale] else []) ++ vs).flatMap okRead ++ bs ++ rest →
      ∃ t, exec (.dapTransferBlock d idx count (high ++ swdNibble ap true a) []) s = .next t ∧
        t.response d.chan = some (0x06 :: le16 (BitVec.ofNat 16 j) ++ cause :: vs.flatMap le32) ∧
        t.draws.swdio = rest ∧ (t.dap d).xferFsm = .faulted) ∧
    (ap = true → FailedAccess (s.dap d) (swdNibble ap true a) bs cause → s.draws.swdio = bs ++ rest →
      ∃ t, exec (.dapTransferBlock d idx count (high ++ swdNibble ap true a) []) s = .next t ∧
        t.response d.chan = some [0x06, 0x00, 0x00, cause] ∧ t.draws.swdio = rest ∧ (t.dap d).xferFsm = .faulted)
end

