-- ==== Sys2Proof/Laws/Bits.lean ====
section
/-! SUPPORT. Bytes, words and bits: what the field builders, the bit lists and the packet byte give back. -/

namespace Sys2Proof

open Machine

theorem u16_le16 (v : Half) : u16 (v.extractLsb' 0 8) (v.extractLsb' 8 8) = v := by
  apply BitVec.eq_of_getLsbD_eq
  intro i hi
  simp only [u16, BitVec.getLsbD_append, BitVec.getLsbD_extractLsb']
  by_cases h : i < 8
  · simp [h]
  · have h2 : i - 8 < 8 := by omega
    have h3 : 8 + (i - 8) = i := by omega
    simp [h, h2, h3]

theorem u32_le32 (v : Word) :
    u32 (v.extractLsb' 0 8) (v.extractLsb' 8 8) (v.extractLsb' 16 8) (v.extractLsb' 24 8) = v := by
  apply BitVec.eq_of_getLsbD_eq
  intro i hi
  simp only [u32, BitVec.getLsbD_append, BitVec.getLsbD_extractLsb']
  by_cases h : i < 8
  · simp [h]
  · by_cases h' : i < 16
    · have h2 : i - 8 < 8 := by omega
      have h3 : 8 + (i - 8) = i := by omega
      simp [h, h2, h3]
    · by_cases h'' : i < 24
      · have h1 : ¬ i - 8 < 8 := by omega
        have h2 : i - 8 - 8 < 8 := by omega
        have h3 : 16 + (i - 8 - 8) = i := by omega
        simp [h, h1, h2, h3]
      · have h1 : ¬ i - 8 < 8 := by omega
        have h2 : ¬ i - 8 - 8 < 8 := by omega
        have h4 : i - 8 - 8 - 8 < 8 := by omega
        have h3 : 24 + (i - 8 - 8 - 8) = i := by omega
        simp [h, h1, h2, h3, h4]

/-- Every packet byte decodes to its nibble (R102). -/
theorem packetByte_nibble : ∀ r : Nibble, (packetByte r).extractLsb' 1 4 = r := by decide

/-- The packet decoder reads back every nibble. -/
theorem decodePacket_packetByte (d : DapCh) (r : Nibble) (w : Word) :
    decodePacket d (packetByte r) w = .ok (packetInstr d r w) := by
  simp [decodePacket, packetByte_nibble r]

theorem packetInstr_dpWrite (d : DapCh) (w : Word) : ∀ a : BitVec 2,
    packetInstr d (swdNibble false false a) w = .swdDpWrite d a w := by
  intro a
  have h : (swdNibble false false a).getLsbD 0 = false ∧ (swdNibble false false a).getLsbD 1 = false ∧
      (swdNibble false false a).extractLsb' 2 2 = a := by revert a; decide
  simp only [packetInstr, h.1, h.2.1, h.2.2]

theorem packetInstr_apWrite (d : DapCh) (w : Word) : ∀ a : BitVec 2,
    packetInstr d (swdNibble true false a) w = .swdApWrite d a w := by
  intro a
  have h : (swdNibble true false a).getLsbD 0 = true ∧ (swdNibble true false a).getLsbD 1 = false ∧
      (swdNibble true false a).extractLsb' 2 2 = a := by revert a; decide
  simp only [packetInstr, h.1, h.2.1, h.2.2]

theorem packetInstr_dpRead (d : DapCh) (w : Word) : ∀ a : BitVec 2,
    packetInstr d (swdNibble false true a) w = .swdDpRead d a := by
  intro a
  have h : (swdNibble false true a).getLsbD 0 = false ∧ (swdNibble false true a).getLsbD 1 = true ∧
      (swdNibble false true a).extractLsb' 2 2 = a := by revert a; decide
  simp only [packetInstr, h.1, h.2.1, h.2.2]

theorem packetInstr_apRead (d : DapCh) (w : Word) : ∀ a : BitVec 2,
    packetInstr d (swdNibble true true a) w = .swdApRead d a := by
  intro a
  have h : (swdNibble true true a).getLsbD 0 = true ∧ (swdNibble true true a).getLsbD 1 = true ∧
      (swdNibble true true a).extractLsb' 2 2 = a := by revert a; decide
  simp only [packetInstr, h.1, h.2.1, h.2.2]

namespace Machine

@[simp] theorem bitsOf_length {n : Nat} (v : BitVec n) : (bitsOf v).length = n := by simp [bitsOf]

theorem ofBits_getLsbD (n : Nat) (bs : List Bool) (i : Nat) (hi : i < n) :
    (ofBits n bs).getLsbD i = bs.getD i false := by
  induction bs generalizing i with
  | nil => simp only [ofBits, List.getD_nil]; exact BitVec.getLsbD_zero
  | cons b bs ih =>
    rw [ofBits, BitVec.getLsbD_or, BitVec.getLsbD_shiftLeft]
    cases i with
    | zero => cases b <;> simp [hi]
    | succ i =>
      have h := ih i (by omega)
      have h1 : (if b = true then 1 else 0 : BitVec n).getLsbD (i + 1) = false := by
        cases b
        · exact BitVec.getLsbD_zero
        · simp [BitVec.getLsbD_one]
      rw [h1, Nat.add_sub_cancel, h]
      simp only [hi, decide_true, Bool.true_and, Bool.or_false, List.getD_cons_succ]
      simp

/-- The bits of a word give the word back. -/
@[simp] theorem ofBits_bitsOf {n : Nat} (v : BitVec n) : ofBits n (bitsOf v) = v := by
  apply BitVec.eq_of_getLsbD_eq
  intro i hi
  rw [ofBits_getLsbD n _ i hi, bitsOf, List.getD_eq_getElem?_getD, List.getElem?_map,
    List.getElem?_range hi]
  rfl

end Machine

end Sys2Proof
end

