-- ==== Sys2Proof/Laws/State.lean ====
section
/-! SUPPORT. The fields of a state after each named update: one lemma per field per update, for simp. -/

namespace Sys2Proof.Machine

/-! ### `setFront` -/

@[simp] theorem State.setFront_cfg (s : State) (c : Chan) (f : Front) : (s.setFront c f).cfg = s.cfg := by cases c <;> rfl
@[simp] theorem State.setFront_owner (s : State) (c : Chan) (f : Front) : (s.setFront c f).owner = s.owner := by cases c <;> rfl
@[simp] theorem State.setFront_pending (s : State) (c : Chan) (f : Front) : (s.setFront c f).pending = s.pending := by cases c <;> rfl
@[simp] theorem State.setFront_lastGrant (s : State) (c : Chan) (f : Front) : (s.setFront c f).lastGrant = s.lastGrant := by cases c <;> rfl
@[simp] theorem State.setFront_pinMode (s : State) (c : Chan) (f : Front) : (s.setFront c f).pinMode = s.pinMode := by cases c <;> rfl
@[simp] theorem State.setFront_csN (s : State) (c : Chan) (f : Front) : (s.setFront c f).csN = s.csN := by cases c <;> rfl
@[simp] theorem State.setFront_resetN (s : State) (c : Chan) (f : Front) : (s.setFront c f).resetN = s.resetN := by cases c <;> rfl
@[simp] theorem State.setFront_powerEn (s : State) (c : Chan) (f : Front) : (s.setFront c f).powerEn = s.powerEn := by cases c <;> rfl
@[simp] theorem State.setFront_sck (s : State) (c : Chan) (f : Front) : (s.setFront c f).sck = s.sck := by cases c <;> rfl
@[simp] theorem State.setFront_sdo (s : State) (c : Chan) (f : Front) : (s.setFront c f).sdo = s.sdo := by cases c <;> rfl
@[simp] theorem State.setFront_swdioOe (s : State) (c : Chan) (f : Front) : (s.setFront c f).swdioOe = s.swdioOe := by cases c <;> rfl
@[simp] theorem State.setFront_activeDiv (s : State) (c : Chan) (f : Front) : (s.setFront c f).activeDiv = s.activeDiv := by cases c <;> rfl
@[simp] theorem State.setFront_bootReq (s : State) (c : Chan) (f : Front) : (s.setFront c f).bootReq = s.bootReq := by cases c <;> rfl
@[simp] theorem State.setFront_brTxn (s : State) (c : Chan) (f : Front) : (s.setFront c f).brTxn = s.brTxn := by cases c <;> rfl
@[simp] theorem State.setFront_brDiv (s : State) (c : Chan) (f : Front) : (s.setFront c f).brDiv = s.brDiv := by cases c <;> rfl
@[simp] theorem State.setFront_log (s : State) (c : Chan) (f : Front) : (s.setFront c f).log = s.log := by cases c <;> rfl
@[simp] theorem State.setFront_swdPort (s : State) (c : Chan) (f : Front) : (s.setFront c f).swdPort = s.swdPort := by cases c <;> rfl
@[simp] theorem State.setFront_swdResult (s : State) (c : Chan) (f : Front) : (s.setFront c f).swdResult = s.swdResult := by cases c <;> rfl
@[simp] theorem State.setFront_draws (s : State) (c : Chan) (f : Front) : (s.setFront c f).draws = s.draws := by cases c <;> rfl
@[simp] theorem State.setFront_sched (s : State) (c : Chan) (f : Front) : (s.setFront c f).sched = s.sched := by cases c <;> rfl
@[simp] theorem State.setFront_ahead (s : State) (c : Chan) (f : Front) : (s.setFront c f).ahead = s.ahead := by cases c <;> rfl
@[simp] theorem State.setFront_leaseWaits (s : State) (c : Chan) (f : Front) : (s.setFront c f).leaseWaits = s.leaseWaits := by cases c <;> rfl

@[simp] theorem State.setFront_dap (s : State) (c : Chan) (f : Front) (d : DapCh) : (s.setFront c f).dap d = s.dap d := by
  cases c <;> rfl
@[simp] theorem State.setFront_front_self (s : State) (c : Chan) (f : Front) : (s.setFront c f).front c = f := by
  cases c <;> rfl
theorem State.setFront_front_ne (s : State) (f : Front) {c e : Chan} (h : e ≠ c) :
    (s.setFront c f).front e = s.front e := by
  cases c <;> cases e <;> first | rfl | exact absurd rfl h
@[simp] theorem State.setFront_setFront (s : State) (c : Chan) (f g : Front) :
    (s.setFront c f).setFront c g = s.setFront c g := by
  cases c <;> rfl
@[simp] theorem State.setFront_self (s : State) (c : Chan) : s.setFront c (s.front c) = s := by
  cases c <;> rfl

/-! ### `setPhase` -/

@[simp] theorem State.setPhase_cfg (s : State) (c : Chan) (p : Phase) : (s.setPhase c p).cfg = s.cfg := by cases c <;> rfl
@[simp] theorem State.setPhase_owner (s : State) (c : Chan) (p : Phase) : (s.setPhase c p).owner = s.owner := by cases c <;> rfl
@[simp] theorem State.setPhase_pending (s : State) (c : Chan) (p : Phase) : (s.setPhase c p).pending = s.pending := by cases c <;> rfl
@[simp] theorem State.setPhase_lastGrant (s : State) (c : Chan) (p : Phase) : (s.setPhase c p).lastGrant = s.lastGrant := by cases c <;> rfl
@[simp] theorem State.setPhase_pinMode (s : State) (c : Chan) (p : Phase) : (s.setPhase c p).pinMode = s.pinMode := by cases c <;> rfl
@[simp] theorem State.setPhase_csN (s : State) (c : Chan) (p : Phase) : (s.setPhase c p).csN = s.csN := by cases c <;> rfl
@[simp] theorem State.setPhase_resetN (s : State) (c : Chan) (p : Phase) : (s.setPhase c p).resetN = s.resetN := by cases c <;> rfl
@[simp] theorem State.setPhase_powerEn (s : State) (c : Chan) (p : Phase) : (s.setPhase c p).powerEn = s.powerEn := by cases c <;> rfl
@[simp] theorem State.setPhase_sck (s : State) (c : Chan) (p : Phase) : (s.setPhase c p).sck = s.sck := by cases c <;> rfl
@[simp] theorem State.setPhase_sdo (s : State) (c : Chan) (p : Phase) : (s.setPhase c p).sdo = s.sdo := by cases c <;> rfl
@[simp] theorem State.setPhase_swdioOe (s : State) (c : Chan) (p : Phase) : (s.setPhase c p).swdioOe = s.swdioOe := by cases c <;> rfl
@[simp] theorem State.setPhase_activeDiv (s : State) (c : Chan) (p : Phase) : (s.setPhase c p).activeDiv = s.activeDiv := by cases c <;> rfl
@[simp] theorem State.setPhase_bootReq (s : State) (c : Chan) (p : Phase) : (s.setPhase c p).bootReq = s.bootReq := by cases c <;> rfl
@[simp] theorem State.setPhase_brTxn (s : State) (c : Chan) (p : Phase) : (s.setPhase c p).brTxn = s.brTxn := by cases c <;> rfl
@[simp] theorem State.setPhase_brDiv (s : State) (c : Chan) (p : Phase) : (s.setPhase c p).brDiv = s.brDiv := by cases c <;> rfl
@[simp] theorem State.setPhase_log (s : State) (c : Chan) (p : Phase) : (s.setPhase c p).log = s.log := by cases c <;> rfl
@[simp] theorem State.setPhase_swdPort (s : State) (c : Chan) (p : Phase) : (s.setPhase c p).swdPort = s.swdPort := by cases c <;> rfl
@[simp] theorem State.setPhase_swdResult (s : State) (c : Chan) (p : Phase) : (s.setPhase c p).swdResult = s.swdResult := by cases c <;> rfl
@[simp] theorem State.setPhase_draws (s : State) (c : Chan) (p : Phase) : (s.setPhase c p).draws = s.draws := by cases c <;> rfl
@[simp] theorem State.setPhase_sched (s : State) (c : Chan) (p : Phase) : (s.setPhase c p).sched = s.sched := by cases c <;> rfl
@[simp] theorem State.setPhase_ahead (s : State) (c : Chan) (p : Phase) : (s.setPhase c p).ahead = s.ahead := by cases c <;> rfl
@[simp] theorem State.setPhase_leaseWaits (s : State) (c : Chan) (p : Phase) : (s.setPhase c p).leaseWaits = s.leaseWaits := by cases c <;> rfl

@[simp] theorem State.setPhase_dap (s : State) (c : Chan) (p : Phase) (d : DapCh) : (s.setPhase c p).dap d = s.dap d := by
  cases c <;> rfl
@[simp] theorem State.setPhase_front_self (s : State) (c : Chan) (p : Phase) :
    (s.setPhase c p).front c = { s.front c with phase := p } := by
  cases c <;> rfl
theorem State.setPhase_front_ne (s : State) (p : Phase) {c e : Chan} (h : e ≠ c) :
    (s.setPhase c p).front e = s.front e := by
  cases c <;> cases e <;> first | rfl | exact absurd rfl h

/-! ### `respond` -/

@[simp] theorem State.respond_cfg (s : State) (c : Chan) (r : Option Frame) (b : Bool) : (s.respond c r b).cfg = s.cfg := by cases c <;> rfl
@[simp] theorem State.respond_owner (s : State) (c : Chan) (r : Option Frame) (b : Bool) : (s.respond c r b).owner = s.owner := by cases c <;> rfl
@[simp] theorem State.respond_pending (s : State) (c : Chan) (r : Option Frame) (b : Bool) : (s.respond c r b).pending = s.pending := by cases c <;> rfl
@[simp] theorem State.respond_lastGrant (s : State) (c : Chan) (r : Option Frame) (b : Bool) : (s.respond c r b).lastGrant = s.lastGrant := by cases c <;> rfl
@[simp] theorem State.respond_pinMode (s : State) (c : Chan) (r : Option Frame) (b : Bool) : (s.respond c r b).pinMode = s.pinMode := by cases c <;> rfl
@[simp] theorem State.respond_csN (s : State) (c : Chan) (r : Option Frame) (b : Bool) : (s.respond c r b).csN = s.csN := by cases c <;> rfl
@[simp] theorem State.respond_resetN (s : State) (c : Chan) (r : Option Frame) (b : Bool) : (s.respond c r b).resetN = s.resetN := by cases c <;> rfl
@[simp] theorem State.respond_powerEn (s : State) (c : Chan) (r : Option Frame) (b : Bool) : (s.respond c r b).powerEn = s.powerEn := by cases c <;> rfl
@[simp] theorem State.respond_sck (s : State) (c : Chan) (r : Option Frame) (b : Bool) : (s.respond c r b).sck = s.sck := by cases c <;> rfl
@[simp] theorem State.respond_sdo (s : State) (c : Chan) (r : Option Frame) (b : Bool) : (s.respond c r b).sdo = s.sdo := by cases c <;> rfl
@[simp] theorem State.respond_swdioOe (s : State) (c : Chan) (r : Option Frame) (b : Bool) : (s.respond c r b).swdioOe = s.swdioOe := by cases c <;> rfl
@[simp] theorem State.respond_activeDiv (s : State) (c : Chan) (r : Option Frame) (b : Bool) : (s.respond c r b).activeDiv = s.activeDiv := by cases c <;> rfl
@[simp] theorem State.respond_bootReq (s : State) (c : Chan) (r : Option Frame) (b : Bool) : (s.respond c r b).bootReq = s.bootReq := by cases c <;> rfl
@[simp] theorem State.respond_brTxn (s : State) (c : Chan) (r : Option Frame) (b : Bool) : (s.respond c r b).brTxn = s.brTxn := by cases c <;> rfl
@[simp] theorem State.respond_brDiv (s : State) (c : Chan) (r : Option Frame) (b : Bool) : (s.respond c r b).brDiv = s.brDiv := by cases c <;> rfl
@[simp] theorem State.respond_log (s : State) (c : Chan) (r : Option Frame) (b : Bool) : (s.respond c r b).log = s.log := by cases c <;> rfl
@[simp] theorem State.respond_swdPort (s : State) (c : Chan) (r : Option Frame) (b : Bool) : (s.respond c r b).swdPort = s.swdPort := by cases c <;> rfl
@[simp] theorem State.respond_swdResult (s : State) (c : Chan) (r : Option Frame) (b : Bool) : (s.respond c r b).swdResult = s.swdResult := by cases c <;> rfl
@[simp] theorem State.respond_draws (s : State) (c : Chan) (r : Option Frame) (b : Bool) : (s.respond c r b).draws = s.draws := by cases c <;> rfl
@[simp] theorem State.respond_sched (s : State) (c : Chan) (r : Option Frame) (b : Bool) : (s.respond c r b).sched = s.sched := by cases c <;> rfl
@[simp] theorem State.respond_ahead (s : State) (c : Chan) (r : Option Frame) (b : Bool) : (s.respond c r b).ahead = s.ahead := by cases c <;> rfl
@[simp] theorem State.respond_leaseWaits (s : State) (c : Chan) (r : Option Frame) (b : Bool) : (s.respond c r b).leaseWaits = s.leaseWaits := by cases c <;> rfl

@[simp] theorem State.respond_dap (s : State) (c : Chan) (r : Option Frame) (b : Bool) (d : DapCh) :
    (s.respond c r b).dap d = s.dap d := by
  cases c <;> rfl
@[simp] theorem State.respond_front_self (s : State) (c : Chan) (r : Option Frame) (b : Bool) :
    (s.respond c r b).front c = { s.front c with phase := .ran r b } := by
  cases c <;> rfl
theorem State.respond_front_ne (s : State) (r : Option Frame) (b : Bool) {c e : Chan} (h : e ≠ c) :
    (s.respond c r b).front e = s.front e := by
  cases c <;> cases e <;> first | rfl | exact absurd rfl h

/-! ### `setDap` -/

@[simp] theorem State.setDap_cfg (s : State) (d : DapCh) (r : DapRegs) : (s.setDap d r).cfg = s.cfg := by cases d <;> rfl
@[simp] theorem State.setDap_owner (s : State) (d : DapCh) (r : DapRegs) : (s.setDap d r).owner = s.owner := by cases d <;> rfl
@[simp] theorem State.setDap_pending (s : State) (d : DapCh) (r : DapRegs) : (s.setDap d r).pending = s.pending := by cases d <;> rfl
@[simp] theorem State.setDap_lastGrant (s : State) (d : DapCh) (r : DapRegs) : (s.setDap d r).lastGrant = s.lastGrant := by cases d <;> rfl
@[simp] theorem State.setDap_pinMode (s : State) (d : DapCh) (r : DapRegs) : (s.setDap d r).pinMode = s.pinMode := by cases d <;> rfl
@[simp] theorem State.setDap_csN (s : State) (d : DapCh) (r : DapRegs) : (s.setDap d r).csN = s.csN := by cases d <;> rfl
@[simp] theorem State.setDap_resetN (s : State) (d : DapCh) (r : DapRegs) : (s.setDap d r).resetN = s.resetN := by cases d <;> rfl
@[simp] theorem State.setDap_powerEn (s : State) (d : DapCh) (r : DapRegs) : (s.setDap d r).powerEn = s.powerEn := by cases d <;> rfl
@[simp] theorem State.setDap_sck (s : State) (d : DapCh) (r : DapRegs) : (s.setDap d r).sck = s.sck := by cases d <;> rfl
@[simp] theorem State.setDap_sdo (s : State) (d : DapCh) (r : DapRegs) : (s.setDap d r).sdo = s.sdo := by cases d <;> rfl
@[simp] theorem State.setDap_swdioOe (s : State) (d : DapCh) (r : DapRegs) : (s.setDap d r).swdioOe = s.swdioOe := by cases d <;> rfl
@[simp] theorem State.setDap_activeDiv (s : State) (d : DapCh) (r : DapRegs) : (s.setDap d r).activeDiv = s.activeDiv := by cases d <;> rfl
@[simp] theorem State.setDap_bootReq (s : State) (d : DapCh) (r : DapRegs) : (s.setDap d r).bootReq = s.bootReq := by cases d <;> rfl
@[simp] theorem State.setDap_brTxn (s : State) (d : DapCh) (r : DapRegs) : (s.setDap d r).brTxn = s.brTxn := by cases d <;> rfl
@[simp] theorem State.setDap_brDiv (s : State) (d : DapCh) (r : DapRegs) : (s.setDap d r).brDiv = s.brDiv := by cases d <;> rfl
@[simp] theorem State.setDap_log (s : State) (d : DapCh) (r : DapRegs) : (s.setDap d r).log = s.log := by cases d <;> rfl
@[simp] theorem State.setDap_swdPort (s : State) (d : DapCh) (r : DapRegs) : (s.setDap d r).swdPort = s.swdPort := by cases d <;> rfl
@[simp] theorem State.setDap_swdResult (s : State) (d : DapCh) (r : DapRegs) : (s.setDap d r).swdResult = s.swdResult := by cases d <;> rfl
@[simp] theorem State.setDap_draws (s : State) (d : DapCh) (r : DapRegs) : (s.setDap d r).draws = s.draws := by cases d <;> rfl
@[simp] theorem State.setDap_sched (s : State) (d : DapCh) (r : DapRegs) : (s.setDap d r).sched = s.sched := by cases d <;> rfl
@[simp] theorem State.setDap_ahead (s : State) (d : DapCh) (r : DapRegs) : (s.setDap d r).ahead = s.ahead := by cases d <;> rfl
@[simp] theorem State.setDap_leaseWaits (s : State) (d : DapCh) (r : DapRegs) : (s.setDap d r).leaseWaits = s.leaseWaits := by cases d <;> rfl

@[simp] theorem State.setDap_front (s : State) (d : DapCh) (r : DapRegs) (c : Chan) : (s.setDap d r).front c = s.front c := by
  cases d <;> cases c <;> rfl
@[simp] theorem State.setDap_dap_self (s : State) (d : DapCh) (r : DapRegs) : (s.setDap d r).dap d = r := by
  cases d <;> rfl
theorem State.setDap_dap_ne (s : State) (r : DapRegs) {d e : DapCh} (h : e ≠ d) :
    (s.setDap d r).dap e = s.dap e := by
  cases d <;> cases e <;> first | rfl | exact absurd rfl h

/-! ### `setBatch` -/

@[simp] theorem State.setBatch_cfg (s : State) (d : DapCh) (b : Batch) : (s.setBatch d b).cfg = s.cfg := by cases d <;> rfl
@[simp] theorem State.setBatch_owner (s : State) (d : DapCh) (b : Batch) : (s.setBatch d b).owner = s.owner := by cases d <;> rfl
@[simp] theorem State.setBatch_pending (s : State) (d : DapCh) (b : Batch) : (s.setBatch d b).pending = s.pending := by cases d <;> rfl
@[simp] theorem State.setBatch_lastGrant (s : State) (d : DapCh) (b : Batch) : (s.setBatch d b).lastGrant = s.lastGrant := by cases d <;> rfl
@[simp] theorem State.setBatch_pinMode (s : State) (d : DapCh) (b : Batch) : (s.setBatch d b).pinMode = s.pinMode := by cases d <;> rfl
@[simp] theorem State.setBatch_csN (s : State) (d : DapCh) (b : Batch) : (s.setBatch d b).csN = s.csN := by cases d <;> rfl
@[simp] theorem State.setBatch_resetN (s : State) (d : DapCh) (b : Batch) : (s.setBatch d b).resetN = s.resetN := by cases d <;> rfl
@[simp] theorem State.setBatch_powerEn (s : State) (d : DapCh) (b : Batch) : (s.setBatch d b).powerEn = s.powerEn := by cases d <;> rfl
@[simp] theorem State.setBatch_sck (s : State) (d : DapCh) (b : Batch) : (s.setBatch d b).sck = s.sck := by cases d <;> rfl
@[simp] theorem State.setBatch_sdo (s : State) (d : DapCh) (b : Batch) : (s.setBatch d b).sdo = s.sdo := by cases d <;> rfl
@[simp] theorem State.setBatch_swdioOe (s : State) (d : DapCh) (b : Batch) : (s.setBatch d b).swdioOe = s.swdioOe := by cases d <;> rfl
@[simp] theorem State.setBatch_activeDiv (s : State) (d : DapCh) (b : Batch) : (s.setBatch d b).activeDiv = s.activeDiv := by cases d <;> rfl
@[simp] theorem State.setBatch_bootReq (s : State) (d : DapCh) (b : Batch) : (s.setBatch d b).bootReq = s.bootReq := by cases d <;> rfl
@[simp] theorem State.setBatch_brTxn (s : State) (d : DapCh) (b : Batch) : (s.setBatch d b).brTxn = s.brTxn := by cases d <;> rfl
@[simp] theorem State.setBatch_brDiv (s : State) (d : DapCh) (b : Batch) : (s.setBatch d b).brDiv = s.brDiv := by cases d <;> rfl
@[simp] theorem State.setBatch_log (s : State) (d : DapCh) (b : Batch) : (s.setBatch d b).log = s.log := by cases d <;> rfl
@[simp] theorem State.setBatch_swdPort (s : State) (d : DapCh) (b : Batch) : (s.setBatch d b).swdPort = s.swdPort := by cases d <;> rfl
@[simp] theorem State.setBatch_swdResult (s : State) (d : DapCh) (b : Batch) : (s.setBatch d b).swdResult = s.swdResult := by cases d <;> rfl
@[simp] theorem State.setBatch_draws (s : State) (d : DapCh) (b : Batch) : (s.setBatch d b).draws = s.draws := by cases d <;> rfl
@[simp] theorem State.setBatch_sched (s : State) (d : DapCh) (b : Batch) : (s.setBatch d b).sched = s.sched := by cases d <;> rfl
@[simp] theorem State.setBatch_ahead (s : State) (d : DapCh) (b : Batch) : (s.setBatch d b).ahead = s.ahead := by cases d <;> rfl
@[simp] theorem State.setBatch_leaseWaits (s : State) (d : DapCh) (b : Batch) : (s.setBatch d b).leaseWaits = s.leaseWaits := by cases d <;> rfl

@[simp] theorem State.setBatch_front (s : State) (d : DapCh) (b : Batch) (c : Chan) : (s.setBatch d b).front c = s.front c := by
  cases d <;> cases c <;> rfl
@[simp] theorem State.setBatch_dap_self (s : State) (d : DapCh) (b : Batch) : (s.setBatch d b).dap d = { s.dap d with batch := b } := by
  cases d <;> rfl
theorem State.setBatch_dap_ne (s : State) (b : Batch) {d e : DapCh} (h : e ≠ d) :
    (s.setBatch d b).dap e = s.dap e := by
  cases d <;> cases e <;> first | rfl | exact absurd rfl h

/-! ### `setFsm` -/

@[simp] theorem State.setFsm_cfg (s : State) (d : DapCh) (x : XferFsm) : (s.setFsm d x).cfg = s.cfg := by cases d <;> rfl
@[simp] theorem State.setFsm_owner (s : State) (d : DapCh) (x : XferFsm) : (s.setFsm d x).owner = s.owner := by cases d <;> rfl
@[simp] theorem State.setFsm_pending (s : State) (d : DapCh) (x : XferFsm) : (s.setFsm d x).pending = s.pending := by cases d <;> rfl
@[simp] theorem State.setFsm_lastGrant (s : State) (d : DapCh) (x : XferFsm) : (s.setFsm d x).lastGrant = s.lastGrant := by cases d <;> rfl
@[simp] theorem State.setFsm_pinMode (s : State) (d : DapCh) (x : XferFsm) : (s.setFsm d x).pinMode = s.pinMode := by cases d <;> rfl
@[simp] theorem State.setFsm_csN (s : State) (d : DapCh) (x : XferFsm) : (s.setFsm d x).csN = s.csN := by cases d <;> rfl
@[simp] theorem State.setFsm_resetN (s : State) (d : DapCh) (x : XferFsm) : (s.setFsm d x).resetN = s.resetN := by cases d <;> rfl
@[simp] theorem State.setFsm_powerEn (s : State) (d : DapCh) (x : XferFsm) : (s.setFsm d x).powerEn = s.powerEn := by cases d <;> rfl
@[simp] theorem State.setFsm_sck (s : State) (d : DapCh) (x : XferFsm) : (s.setFsm d x).sck = s.sck := by cases d <;> rfl
@[simp] theorem State.setFsm_sdo (s : State) (d : DapCh) (x : XferFsm) : (s.setFsm d x).sdo = s.sdo := by cases d <;> rfl
@[simp] theorem State.setFsm_swdioOe (s : State) (d : DapCh) (x : XferFsm) : (s.setFsm d x).swdioOe = s.swdioOe := by cases d <;> rfl
@[simp] theorem State.setFsm_activeDiv (s : State) (d : DapCh) (x : XferFsm) : (s.setFsm d x).activeDiv = s.activeDiv := by cases d <;> rfl
@[simp] theorem State.setFsm_bootReq (s : State) (d : DapCh) (x : XferFsm) : (s.setFsm d x).bootReq = s.bootReq := by cases d <;> rfl
@[simp] theorem State.setFsm_brTxn (s : State) (d : DapCh) (x : XferFsm) : (s.setFsm d x).brTxn = s.brTxn := by cases d <;> rfl
@[simp] theorem State.setFsm_brDiv (s : State) (d : DapCh) (x : XferFsm) : (s.setFsm d x).brDiv = s.brDiv := by cases d <;> rfl
@[simp] theorem State.setFsm_log (s : State) (d : DapCh) (x : XferFsm) : (s.setFsm d x).log = s.log := by cases d <;> rfl
@[simp] theorem State.setFsm_swdPort (s : State) (d : DapCh) (x : XferFsm) : (s.setFsm d x).swdPort = s.swdPort := by cases d <;> rfl
@[simp] theorem State.setFsm_swdResult (s : State) (d : DapCh) (x : XferFsm) : (s.setFsm d x).swdResult = s.swdResult := by cases d <;> rfl
@[simp] theorem State.setFsm_draws (s : State) (d : DapCh) (x : XferFsm) : (s.setFsm d x).draws = s.draws := by cases d <;> rfl
@[simp] theorem State.setFsm_sched (s : State) (d : DapCh) (x : XferFsm) : (s.setFsm d x).sched = s.sched := by cases d <;> rfl
@[simp] theorem State.setFsm_ahead (s : State) (d : DapCh) (x : XferFsm) : (s.setFsm d x).ahead = s.ahead := by cases d <;> rfl
@[simp] theorem State.setFsm_leaseWaits (s : State) (d : DapCh) (x : XferFsm) : (s.setFsm d x).leaseWaits = s.leaseWaits := by cases d <;> rfl

@[simp] theorem State.setFsm_front (s : State) (d : DapCh) (x : XferFsm) (c : Chan) : (s.setFsm d x).front c = s.front c := by
  cases d <;> cases c <;> rfl
@[simp] theorem State.setFsm_dap_self (s : State) (d : DapCh) (x : XferFsm) : (s.setFsm d x).dap d = { s.dap d with xferFsm := x } := by
  cases d <;> rfl
theorem State.setFsm_dap_ne (s : State) (x : XferFsm) {d e : DapCh} (h : e ≠ d) :
    (s.setFsm d x).dap e = s.dap e := by
  cases d <;> cases e <;> first | rfl | exact absurd rfl h

/-! ### `setDapState` -/

@[simp] theorem State.setDapState_cfg (s : State) (d : DapCh) (x : DapState) : (s.setDapState d x).cfg = s.cfg := by cases d <;> rfl
@[simp] theorem State.setDapState_owner (s : State) (d : DapCh) (x : DapState) : (s.setDapState d x).owner = s.owner := by cases d <;> rfl
@[simp] theorem State.setDapState_pending (s : State) (d : DapCh) (x : DapState) : (s.setDapState d x).pending = s.pending := by cases d <;> rfl
@[simp] theorem State.setDapState_lastGrant (s : State) (d : DapCh) (x : DapState) : (s.setDapState d x).lastGrant = s.lastGrant := by cases d <;> rfl
@[simp] theorem State.setDapState_pinMode (s : State) (d : DapCh) (x : DapState) : (s.setDapState d x).pinMode = s.pinMode := by cases d <;> rfl
@[simp] theorem State.setDapState_csN (s : State) (d : DapCh) (x : DapState) : (s.setDapState d x).csN = s.csN := by cases d <;> rfl
@[simp] theorem State.setDapState_resetN (s : State) (d : DapCh) (x : DapState) : (s.setDapState d x).resetN = s.resetN := by cases d <;> rfl
@[simp] theorem State.setDapState_powerEn (s : State) (d : DapCh) (x : DapState) : (s.setDapState d x).powerEn = s.powerEn := by cases d <;> rfl
@[simp] theorem State.setDapState_sck (s : State) (d : DapCh) (x : DapState) : (s.setDapState d x).sck = s.sck := by cases d <;> rfl
@[simp] theorem State.setDapState_sdo (s : State) (d : DapCh) (x : DapState) : (s.setDapState d x).sdo = s.sdo := by cases d <;> rfl
@[simp] theorem State.setDapState_swdioOe (s : State) (d : DapCh) (x : DapState) : (s.setDapState d x).swdioOe = s.swdioOe := by cases d <;> rfl
@[simp] theorem State.setDapState_activeDiv (s : State) (d : DapCh) (x : DapState) : (s.setDapState d x).activeDiv = s.activeDiv := by cases d <;> rfl
@[simp] theorem State.setDapState_bootReq (s : State) (d : DapCh) (x : DapState) : (s.setDapState d x).bootReq = s.bootReq := by cases d <;> rfl
@[simp] theorem State.setDapState_brTxn (s : State) (d : DapCh) (x : DapState) : (s.setDapState d x).brTxn = s.brTxn := by cases d <;> rfl
@[simp] theorem State.setDapState_brDiv (s : State) (d : DapCh) (x : DapState) : (s.setDapState d x).brDiv = s.brDiv := by cases d <;> rfl
@[simp] theorem State.setDapState_log (s : State) (d : DapCh) (x : DapState) : (s.setDapState d x).log = s.log := by cases d <;> rfl
@[simp] theorem State.setDapState_swdPort (s : State) (d : DapCh) (x : DapState) : (s.setDapState d x).swdPort = s.swdPort := by cases d <;> rfl
@[simp] theorem State.setDapState_swdResult (s : State) (d : DapCh) (x : DapState) : (s.setDapState d x).swdResult = s.swdResult := by cases d <;> rfl
@[simp] theorem State.setDapState_draws (s : State) (d : DapCh) (x : DapState) : (s.setDapState d x).draws = s.draws := by cases d <;> rfl
@[simp] theorem State.setDapState_sched (s : State) (d : DapCh) (x : DapState) : (s.setDapState d x).sched = s.sched := by cases d <;> rfl
@[simp] theorem State.setDapState_ahead (s : State) (d : DapCh) (x : DapState) : (s.setDapState d x).ahead = s.ahead := by cases d <;> rfl
@[simp] theorem State.setDapState_leaseWaits (s : State) (d : DapCh) (x : DapState) : (s.setDapState d x).leaseWaits = s.leaseWaits := by cases d <;> rfl

@[simp] theorem State.setDapState_front (s : State) (d : DapCh) (x : DapState) (c : Chan) : (s.setDapState d x).front c = s.front c := by
  cases d <;> cases c <;> rfl
@[simp] theorem State.setDapState_dap_self (s : State) (d : DapCh) (x : DapState) : (s.setDapState d x).dap d = { s.dap d with dapState := x } := by
  cases d <;> rfl
theorem State.setDapState_dap_ne (s : State) (x : DapState) {d e : DapCh} (h : e ≠ d) :
    (s.setDapState d x).dap e = s.dap e := by
  cases d <;> cases e <;> first | rfl | exact absurd rfl h

/-! ### `logEv` -/

@[simp] theorem State.logEv_cfg (s : State) (k : EventKind) : (s.logEv k).cfg = s.cfg := rfl
@[simp] theorem State.logEv_owner (s : State) (k : EventKind) : (s.logEv k).owner = s.owner := rfl
@[simp] theorem State.logEv_pending (s : State) (k : EventKind) : (s.logEv k).pending = s.pending := rfl
@[simp] theorem State.logEv_lastGrant (s : State) (k : EventKind) : (s.logEv k).lastGrant = s.lastGrant := rfl
@[simp] theorem State.logEv_pinMode (s : State) (k : EventKind) : (s.logEv k).pinMode = s.pinMode := rfl
@[simp] theorem State.logEv_csN (s : State) (k : EventKind) : (s.logEv k).csN = s.csN := rfl
@[simp] theorem State.logEv_resetN (s : State) (k : EventKind) : (s.logEv k).resetN = s.resetN := rfl
@[simp] theorem State.logEv_powerEn (s : State) (k : EventKind) : (s.logEv k).powerEn = s.powerEn := rfl
@[simp] theorem State.logEv_sck (s : State) (k : EventKind) : (s.logEv k).sck = s.sck := rfl
@[simp] theorem State.logEv_sdo (s : State) (k : EventKind) : (s.logEv k).sdo = s.sdo := rfl
@[simp] theorem State.logEv_swdioOe (s : State) (k : EventKind) : (s.logEv k).swdioOe = s.swdioOe := rfl
@[simp] theorem State.logEv_activeDiv (s : State) (k : EventKind) : (s.logEv k).activeDiv = s.activeDiv := rfl
@[simp] theorem State.logEv_bootReq (s : State) (k : EventKind) : (s.logEv k).bootReq = s.bootReq := rfl
@[simp] theorem State.logEv_brTxn (s : State) (k : EventKind) : (s.logEv k).brTxn = s.brTxn := rfl
@[simp] theorem State.logEv_brDiv (s : State) (k : EventKind) : (s.logEv k).brDiv = s.brDiv := rfl
@[simp] theorem State.logEv_swdPort (s : State) (k : EventKind) : (s.logEv k).swdPort = s.swdPort := rfl
@[simp] theorem State.logEv_swdResult (s : State) (k : EventKind) : (s.logEv k).swdResult = s.swdResult := rfl
@[simp] theorem State.logEv_draws (s : State) (k : EventKind) : (s.logEv k).draws = s.draws := rfl
@[simp] theorem State.logEv_sched (s : State) (k : EventKind) : (s.logEv k).sched = s.sched := rfl
@[simp] theorem State.logEv_ahead (s : State) (k : EventKind) : (s.logEv k).ahead = s.ahead := rfl
@[simp] theorem State.logEv_leaseWaits (s : State) (k : EventKind) : (s.logEv k).leaseWaits = s.leaseWaits := rfl

@[simp] theorem State.logEv_front (s : State) (k : EventKind) (c : Chan) : (s.logEv k).front c = s.front c := by
  cases c <;> rfl
@[simp] theorem State.logEv_dap (s : State) (k : EventKind) (d : DapCh) : (s.logEv k).dap d = s.dap d := by
  cases d <;> rfl
@[simp] theorem State.logEv_log (s : State) (k : EventKind) : (s.logEv k).log = ⟨s.owner, k⟩ :: s.log := rfl

end Sys2Proof.Machine
end

