-- ==== Sys2Proof/Laws/Ops.lean ====
section
/-! SUPPORT. What each shared operation can do, said once: the draws, the pins, the wire of the SWD engine and of the
SPI controller, the lease, the event log of R12, and the end of a command. -/

namespace Sys2Proof.Machine

/-! ## Outcomes -/

/-- A sequence of two outcomes ends in a next state exactly where both do. -/
theorem andThen_next {o : Result} {k : State → Result} {t : State} :
    andThen o k = .next t ↔ ∃ s, o = .next s ∧ k s = .next t := by
  cases o <;> simp [andThen]

@[simp] theorem andThen_next_left (s : State) (k : State → Result) : andThen (.next s) k = k s := rfl

/-! ## Draws -/

/-- A drawn level takes from the draws and touches nothing else. -/
theorem State.drawBit_eq (s : State) (src : BitSource) :
    (s.drawBit src).2 = { s with draws := (s.drawBit src).2.draws } := by
  cases src <;> simp only [State.drawBit] <;> split <;> rfl

/-- A drawn level does not depend on anything but the draws. -/
theorem State.drawBit_congr (s t : State) (src : BitSource) (h : t.draws = s.draws) :
    (t.drawBit src).1 = (s.drawBit src).1 ∧ (t.drawBit src).2.draws = (s.drawBit src).2.draws := by
  cases src <;> simp only [State.drawBit, h] <;> split <;> exact ⟨rfl, rfl⟩

/-- A drawn elapsed time takes from the draws and touches nothing else (R268). -/
theorem State.drawElapsed_eq (s : State) (n : Nat) :
    (s.drawElapsed n).2 = { s with draws := (s.drawElapsed n).2.draws } := by
  simp only [State.drawElapsed]; split <;> rfl

/-- A drawn elapsed time is at most the bound (R268). -/
theorem State.drawElapsed_le (s : State) (n : Nat) : (s.drawElapsed n).1 ≤ n := by
  simp only [State.drawElapsed]; split <;> exact Nat.min_le_right _ _

/-- Reading a pin has no effect on the block beyond the draw (R71). -/
theorem State.readPin_eq (s : State) (p : Pin) : (s.readPin p).2 = { s with draws := (s.readPin p).2.draws } := by
  cases p <;> simp only [State.readPin]
  case sck => split; exact s.drawBit_eq _; rfl
  case mosi => split; rfl; exact s.drawBit_eq _
  case miso => exact s.drawBit_eq _
  case cdone => exact s.drawBit_eq _

/-! ## Pins -/

/-- SetPin writes one register and the log (R156). -/
theorem State.setPin_csN (s : State) (v : Bool) :
    s.setPin .csN v = { s with csN := v, log := ⟨s.owner, .pin .csN v⟩ :: s.log } := rfl

theorem State.setPin_resetN (s : State) (v : Bool) :
    s.setPin .resetN v = { s with resetN := v, log := ⟨s.owner, .pin .resetN v⟩ :: s.log } := rfl

theorem State.setPin_powerEn (s : State) (v : Bool) :
    s.setPin .powerEn v = { s with powerEn := v, log := ⟨s.owner, .pin .powerEn v⟩ :: s.log } := rfl

/-- CsWrite writes CS_N and the log (R154). -/
theorem State.csWrite_eq (s : State) (v : Bool) :
    s.csWrite v = { s with csN := v, log := (s.csWrite v).log } := by
  unfold State.csWrite
  split
  · rename_i h; obtain ⟨rfl, -⟩ := h; rfl
  · split
    · rename_i h; obtain ⟨rfl, -⟩ := h; rfl
    · rfl

/-! ## The wire -/

/-- `t` is `s` but for what a wire operation writes: SCK, SDO, SWDIO_OE, the log and the draws. -/
def SameButWire (s t : State) : Prop :=
  t = { s with sck := t.sck, sdo := t.sdo, swdioOe := t.swdioOe, log := t.log, draws := t.draws }

theorem SameButWire.refl (s : State) : SameButWire s s := rfl

theorem SameButWire.trans {s t u : State} (h : SameButWire s t) (k : SameButWire t u) : SameButWire s u := by
  unfold SameButWire at *; rw [k]; rw [h]

theorem SameButWire.dap {s t : State} (h : SameButWire s t) (d : DapCh) : t.dap d = s.dap d := by
  rw [h]; cases d <;> rfl

theorem SameButWire.front {s t : State} (h : SameButWire s t) (c : Chan) : t.front c = s.front c := by
  rw [h]; cases c <;> rfl

theorem SameButWire.owner {s t : State} (h : SameButWire s t) : t.owner = s.owner := by rw [h]

theorem setSwdio_wire (s : State) (oe l : Bool) : SameButWire s (s.setSwdio oe l) := rfl

theorem driveBit_wire (s : State) (b : Bool) : SameButWire s (s.driveBit b) := rfl

theorem clockCycle_wire (s : State) : SameButWire s s.clockCycle := rfl

theorem sampleBit_wire (s : State) : SameButWire s s.sampleBit.2 := by
  simp only [State.sampleBit]
  rw [State.drawBit_eq]
  rfl

theorem driveBits_wire (bs : List Bool) (s : State) : SameButWire s (driveBits bs s) := by
  induction bs generalizing s with
  | nil => exact .refl s
  | cons b bs ih => exact (driveBit_wire s b).trans (ih _)

theorem clockCycles_wire (n : Nat) (s : State) : SameButWire s (clockCycles n s) := by
  induction n generalizing s with
  | zero => exact .refl s
  | succ n ih => exact (clockCycle_wire s).trans (ih _)

theorem sampleBits_wire (n : Nat) (s : State) : SameButWire s (sampleBits n s).2 := by
  induction n generalizing s with
  | zero => exact .refl s
  | succ n ih => exact (sampleBit_wire s).trans (ih _)

@[simp] theorem sampleBits_length (n : Nat) (s : State) : (sampleBits n s).1.length = n := by
  induction n generalizing s with
  | zero => rfl
  | succ n ih => simp [sampleBits, ih]

theorem swdRequest_wire (d : DapCh) (r : Nibble) (s : State) : SameButWire s (swdRequest d r s).2 :=
  (((driveBits_wire _ s).trans (setSwdio_wire _ _ _)).trans (clockCycles_wire _ _)).trans (sampleBits_wire _ _)

theorem swdIdle_wire (d : DapCh) (s : State) : SameButWire s (swdIdle d s) :=
  (driveBits_wire _ s).trans (setSwdio_wire _ _ _)

theorem swdReadPhase_wire (d : DapCh) (s : State) : SameButWire s (swdReadPhase d s).2 :=
  ((((sampleBits_wire 32 s).trans (sampleBit_wire _)).trans (clockCycles_wire _ _)).trans (setSwdio_wire _ _ _)).trans
    (swdIdle_wire d _)

theorem swdWritePhase_wire (d : DapCh) (w : Word) (s : State) : SameButWire s (swdWritePhase d w s).2 :=
  ((((clockCycles_wire _ s).trans (setSwdio_wire _ _ _)).trans (driveBits_wire _ _)).trans (driveBit_wire _ _)).trans
    (swdIdle_wire d _)

theorem swdNackPhase_wire (d : DapCh) (r : Nibble) (s : State) : SameButWire s (swdNackPhase d r s) := by
  simp only [swdNackPhase]
  refine SameButWire.trans ?_ (setSwdio_wire _ _ _)
  have h : SameButWire s (if ((s.dap d).dataPhase && r.getLsbD 1) = true then clockCycles 33 s else s) := by
    split
    · exact clockCycles_wire _ _
    · exact .refl s
  have k := (h.trans (clockCycles_wire (s.dap d).turnaround _)).trans (setSwdio_wire _ true true)
  split
  · exact k.trans (driveBits_wire _ _)
  · exact k

theorem swdBackOff_wire (d : DapCh) (s : State) : SameButWire s (swdBackOff d s) :=
  (clockCycles_wire _ s).trans (setSwdio_wire _ _ _)

/-- One SWD transfer writes SCK, SDO, SWDIO_OE, the log and the draws, and nothing else (R197). -/
theorem swdXfer_wire (d : DapCh) (r : Nibble) (w : Word) (s : State) : SameButWire s (swdXfer d r w s).2 := by
  simp only [swdXfer]
  have h := swdRequest_wire d r s
  split
  · split
    · exact h.trans (swdReadPhase_wire d _)
    · exact h.trans (swdWritePhase_wire d w _)
  · split
    · exact h.trans (swdNackPhase_wire d r _)
    · exact h.trans (swdBackOff_wire d _)

theorem swjBits_wire (bs : List Bool) (s : State) : SameButWire s (swjBits bs s) :=
  (setSwdio_wire _ _ _).trans (driveBits_wire _ _)

/-- The bits of an SPI byte touch SCK, SDO and the draws (R153). -/
theorem spiBits_wire (bs : List Bool) (s : State) : SameButWire s (spiBits bs s).2 := by
  induction bs generalizing s with
  | nil => exact .refl s
  | cons b bs ih =>
    refine SameButWire.trans ?_ (ih _)
    rw [State.drawBit_eq]
    rfl

theorem spiXferByte_wire (tx : Byte) (s : State) : SameButWire s (spiXferByte tx s).2 :=
  SameButWire.trans (t := (spiBits (spiWireBits tx) s).2) (spiBits_wire _ s) rfl

theorem spiExchangeBytes_wire (data : List Byte) (s : State) : SameButWire s (spiExchangeBytes data s).2 := by
  induction data generalizing s with
  | nil => exact .refl s
  | cons tx txs ih => exact (spiXferByte_wire tx s).trans (ih _)

@[simp] theorem spiExchangeBytes_length (data : List Byte) (s : State) :
    (spiExchangeBytes data s).1.length = data.length := by
  induction data generalizing s with
  | nil => rfl
  | cons tx txs ih => simp [spiExchangeBytes, ih]

/-! ## Accesses -/

/-- `t` is `s` but for what one access of `d` writes: the wire, XFER_FSM and the batch registers. -/
def SameButAccess (d : DapCh) (s t : State) : Prop :=
  t = { s with sck := t.sck, sdo := t.sdo, swdioOe := t.swdioOe, log := t.log, draws := t.draws }.setDap d
    { s.dap d with xferFsm := (t.dap d).xferFsm, batch := (t.dap d).batch }

theorem SameButWire.access {s t : State} (d : DapCh) (h : SameButWire s t) : SameButAccess d s t := by
  unfold SameButWire at h; unfold SameButAccess
  cases d <;> (rw [h]; rfl)

theorem SameButAccess.trans {d : DapCh} {s t u : State} (h : SameButAccess d s t) (k : SameButAccess d t u) :
    SameButAccess d s u := by
  unfold SameButAccess at *
  cases d <;> (rw [k]; rw [h]; rfl)

theorem setFsm_access (d : DapCh) (s : State) (x : XferFsm) : SameButAccess d s (s.setFsm d x) := by
  cases d <;> rfl

theorem setBatch_access (d : DapCh) (s : State) (b : Batch) : SameButAccess d s (s.setBatch d b) := by
  cases d <;> rfl

theorem swdRetryLoop_access (d : DapCh) (r : Nibble) (w : Word) (n : Nat) (s : State) :
    SameButAccess d s (swdRetryLoop d r w n s).2 := by
  induction n generalizing s with
  | zero => exact (swdXfer_wire d r w s).access d
  | succ n ih =>
    simp only [swdRetryLoop]
    split
    · exact (((((swdXfer_wire d r w s).access d).trans (setBatch_access d _ _)).trans (setFsm_access d _ _)).trans
        (setFsm_access d _ _)).trans (ih _)
    · exact (swdXfer_wire d r w s).access d

/-- One access with its retries writes the wire, XFER_FSM and the batch registers of its channel (R203). -/
theorem swdXferRetry_access (d : DapCh) (r : Nibble) (w : Word) (s : State) :
    SameButAccess d s (swdXferRetry d r w s).2 :=
  (((setBatch_access d s _).trans (setFsm_access d _ _)).trans (swdRetryLoop_access d r w _ _)).trans
    (setFsm_access d _ _)

/-- After an access XFER_FSM is Idle if it ended OK and Faulted if not (R204). -/
theorem swdXferRetry_fsm (d : DapCh) (r : Nibble) (w : Word) (s : State) :
    ((swdXferRetry d r w s).2.dap d).xferFsm = if (swdXferRetry d r w s).1.ack = ackOk then .idle else .faulted := by
  unfold swdXferRetry
  cases d <;> rfl

/-- The start of a bus command writes the shared pins, PINMODE, ACTIVE_DIV and the log (R221). -/
theorem State.busStart_eq (s : State) (d : DapCh) :
    s.busStart d = { s with
      sck := (s.busStart d).sck, sdo := (s.busStart d).sdo, swdioOe := (s.busStart d).swdioOe, pinMode := .swd
      activeDiv := (s.dap d).swjDiv, log := (s.busStart d).log } := by
  unfold State.busStart
  split
  · rename_i h; cases d <;> (simp only [← h]; rfl)
  · cases d <;> rfl

/-! ## The lease -/

/-- A grant (R126): OWNER, LAST_GRANT, PENDING, the phase of the channel, and EvGrant in the log. -/
theorem State.grant_owner (s : State) (c : Chan) : (s.grant c).owner = some c := by cases c <;> rfl
theorem State.grant_pending (s : State) (c : Chan) : (s.grant c).pending = s.pending.filter (· ≠ c) := by
  cases c <;> rfl
theorem State.grant_log (s : State) (c : Chan) : (s.grant c).log = ⟨some c, .grant c⟩ :: s.log := by cases c <;> rfl
theorem State.grant_front_self (s : State) (c : Chan) : (s.grant c).front c = { s.front c with phase := .granted } := by
  cases c <;> rfl
theorem State.grant_front_ne (s : State) {c x : Chan} (h : x ≠ c) : (s.grant c).front x = s.front x := by
  cases c <;> cases x <;> first | rfl | exact absurd rfl h

/-- Arbitration grants the first waiting channel while the lease is free, and does nothing otherwise (R125). -/
theorem State.arbitrate_cases (s : State) :
    (∃ c cs, s.owner = none ∧ s.pending = c :: cs ∧ s.arbitrate = s.grant c) ∨
    ((s.owner ≠ none ∨ s.pending = []) ∧ s.arbitrate = s) := by
  unfold State.arbitrate
  split
  · rename_i c cs h1 h2; exact .inl ⟨c, cs, h1, h2, rfl⟩
  · rename_i h
    refine .inr ⟨?_, rfl⟩
    cases ho : s.owner with
    | some c => exact .inl (by simp)
    | none =>
      cases hp : s.pending with
      | nil => exact .inr rfl
      | cons c cs => exact absurd hp (h c cs ho)

/-- A release (R129) ends in a next state exactly for the owner. -/
theorem State.release_next {s t : State} {c : Chan} :
    s.release c = .next t ↔
      s.owner = some c ∧ t = State.arbitrate { s.logEv (.release c) with owner := none } := by
  unfold State.release
  split <;> simp_all [eq_comm]

/-- A bus action of the lease holder. -/
theorem onBus_next {c : Chan} {k : State → State} {s t : State} :
    onBus c k s = .next t ↔ s.owner = some c ∧ t = k s := by
  unfold onBus
  split <;> simp_all [eq_comm]

/-- A command that takes the lease: it was granted after a wait and goes on; or it is granted in this step and goes on;
or it waits in PENDING. -/
theorem underLease_next {c : Chan} {k : State → State} {s t : State} :
    underLease c k s = .next t ↔
      ((s.front c).phase = .granted ∧ s.owner = some c ∧ t = k s) ∨
      (¬((s.front c).phase = .granted ∧ s.owner = some c) ∧ s.owner ≠ some c ∧ c ∉ s.pending ∧
        t = if (s.acquire c).owner = some c then k (s.acquire c) else s.acquire c) := by
  unfold underLease
  split
  · rename_i h
    constructor
    · intro e; exact .inl ⟨h.1, h.2, (Host.Outcome.next.inj e).symm⟩
    · rintro (⟨-, -, rfl⟩ | ⟨h', -⟩)
      · rfl
      · exact absurd h h'
  · rename_i h
    split
    · rename_i h2
      simp only [reduceCtorEq, false_iff, not_or, not_and]
      exact ⟨fun a b => absurd ⟨a, b⟩ h, fun _ hn hp => (h2.elim hn hp).elim⟩
    · rename_i h2
      simp only [not_or] at h2
      constructor
      · intro e
        refine .inr ⟨h, h2.1, h2.2, ?_⟩
        split at e <;> rename_i ho <;> simp [ho, ← Host.Outcome.next.inj e]
      · rintro (⟨a, b, -⟩ | ⟨-, -, -, rfl⟩)
        · exact absurd ⟨a, b⟩ h
        · split <;> simp

/-- Asking for a free lease with nobody waiting is a grant in the same step (R125). -/
theorem State.acquire_free {s : State} {c : Chan} (h : s.owner = none) (hp : s.pending = []) :
    s.acquire c = State.grant (State.setPhase { s with pending := [c] } c .waiting) c := by
  unfold State.acquire State.arbitrate
  cases c <;> simp [hp, h]

/-- Asking for a lease another channel holds is a wait at the end of PENDING (R125). -/
theorem State.acquire_held {s : State} {c x : Chan} (h : s.owner = some x) :
    s.acquire c = State.setPhase { s with pending := s.pending ++ [c] } c .waiting := by
  unfold State.acquire State.arbitrate
  cases c <;> simp [h]

/-! ## The Pin/Bus Controller's own step -/

/-- `t` is `s` but for what executed bus events write: the three outputs, LOG and the events ahead. -/
def SameButBus (s t : State) : Prop :=
  t = { s with csN := t.csN, resetN := t.resetN, powerEn := t.powerEn, log := t.log, ahead := t.ahead }

/-- An executed event writes at most one of the three outputs (R156). -/
theorem State.applyPin_eq (s : State) (k : EventKind) :
    s.applyPin k = { s with
      csN := (s.applyPin k).csN, resetN := (s.applyPin k).resetN, powerEn := (s.applyPin k).powerEn } := by
  unfold State.applyPin; split <;> rfl

@[simp] theorem State.applyPin_log (s : State) (k : EventKind) : (s.applyPin k).log = s.log := by
  rw [State.applyPin_eq]
@[simp] theorem State.applyPin_ahead (s : State) (k : EventKind) : (s.applyPin k).ahead = s.ahead := by
  rw [State.applyPin_eq]

/-- What `n` steps of the Pin/Bus Controller do: the next `n` events ahead enter LOG in order, and nothing else changes
but the three outputs (log entry 7). -/
theorem playEvents_spec (n : Nat) (s : State) :
    SameButBus s (playEvents n s) ∧ (playEvents n s).log = (s.ahead.take n).reverse ++ s.log ∧
      (playEvents n s).ahead = s.ahead.drop n := by
  induction n generalizing s with
  | zero => exact ⟨rfl, rfl, rfl⟩
  | succ n ih =>
    rw [playEvents]
    split
    · rename_i h; exact ⟨rfl, by simp [h], by simp [h]⟩
    · rename_i e es h
      obtain ⟨h1, h2, h3⟩ := ih ({ s with ahead := es, log := e :: s.log }.applyPin e.kind)
      refine ⟨?_, by rw [h2, h]; simp, by rw [h3, h]; simp⟩
      unfold SameButBus at *
      rw [h1, State.applyPin_eq]

@[simp] theorem playEvents_nil {n : Nat} {s : State} (h : s.ahead = []) : playEvents n s = s := by
  cases n
  · rfl
  · rw [playEvents, h]

/-- A settled state has nothing ahead, and its LOG holds every event. -/
theorem State.settled_spec (s : State) :
    SameButBus s s.settled ∧ s.settled.log = s.ahead.reverse ++ s.log ∧ s.settled.ahead = [] := by
  obtain ⟨h1, h2, h3⟩ := playEvents_spec s.ahead.length s
  exact ⟨h1, by simp [State.settled, h2], by simp [State.settled, h3]⟩

@[simp] theorem State.settled_of_nil {s : State} (h : s.ahead = []) : s.settled = s := playEvents_nil h

theorem State.finishBus_owner {s : State} {c : Chan} (h : s.owner = some c) : s.finishBus c = s.settled := if_pos h
theorem State.finishBus_other {s : State} {c : Chan} (h : s.owner ≠ some c) : s.finishBus c = s := if_neg h

theorem SameButBus.dap {s t : State} (h : SameButBus s t) (d : DapCh) : t.dap d = s.dap d := by rw [h]; cases d <;> rfl
theorem SameButBus.front {s t : State} (h : SameButBus s t) (c : Chan) : t.front c = s.front c := by
  rw [h]; cases c <;> rfl
theorem SameButBus.owner {s t : State} (h : SameButBus s t) : t.owner = s.owner := by rw [h]
theorem SameButBus.pending {s t : State} (h : SameButBus s t) : t.pending = s.pending := by rw [h]

/-- Executing what is left for a channel's command touches what executed bus events write. -/
theorem State.finishBus_bus (s : State) (c : Chan) : SameButBus s (s.finishBus c) := by
  unfold State.finishBus
  split
  · exact s.settled_spec.1
  · rfl

/-- The new events of a log that has grown are those it has gained. -/
theorem newEvents_append {s t : State} {es : List Event} (h : t.log = es ++ s.log) : newEvents s t = es.reverse := by
  simp [newEvents, h]

/-- Holding back no event changes nothing. -/
@[simp] theorem State.holdBack_zero (s t : State) (c : Chan) : s.holdBack c 0 t = t := by simp [State.holdBack]

/-- Holding back writes what executed bus events write. -/
theorem State.holdBack_bus (s t : State) (c : Chan) (hold : Nat) : SameButBus t (s.holdBack c hold t) := by
  simp only [State.holdBack]
  split
  · exact (playEvents_spec _ _).1
  · rfl

/-- What holding back does to a log that has grown: LOG loses none of its old events, and its new events are those
before the ones that stay ahead, at most `hold` of them. -/
theorem State.holdBack_log {s t : State} {es : List Event} (c : Chan) (hold : Nat) (h : t.log = es ++ s.log)
    (ha : t.ahead = []) :
    ∃ now later, es = later ++ now ∧ later.length ≤ hold ∧ (s.holdBack c hold t).log = now ++ s.log ∧
      (s.holdBack c hold t).ahead = later.reverse := by
  simp only [State.holdBack, newEvents_append h]
  split
  · obtain ⟨-, h2, h3⟩ := playEvents_spec (es.reverse.length - min hold (es.reverse.countP (·.kind.holdable)))
      { t with log := s.log, ahead := es.reverse, csN := s.csN, resetN := s.resetN, powerEn := s.powerEn }
    refine ⟨_, _, ?_, ?_, h2, (h3.trans (List.reverse_reverse _).symm)⟩
    · rw [← List.reverse_append, List.take_append_drop, List.reverse_reverse]
    · simp only [List.length_reverse, List.length_drop]; omega
  · exact ⟨es, [], rfl, Nat.zero_le _, h, ha⟩

/-! ## The event log of R12 -/

/-- The events of the woven log are the log: a lease wait adds no event to it (R46, R282). -/
theorem weave_events (log : List Event) (ws : List LeaseWait) : (weave log ws).filterMap LogEntry.event? = log := by
  induction log generalizing ws with
  | nil => simp [weave, List.filterMap_eq_nil_iff, LeaseWait.entry, LogEntry.event?]
  | cons e es ih =>
    simp only [weave, List.filterMap_append, List.filterMap_cons, LogEntry.event?, ih]
    simp [List.filterMap_eq_nil_iff, LeaseWait.entry, LogEntry.event?]

/-- A wait placed after the whole log is the newest entry. -/
theorem weave_wait (log : List Event) (ws : List LeaseWait) (c : Chan) (n : Nat) :
    weave log (⟨c, n, log.length⟩ :: ws) = .leaseWait c n :: weave log ws := by
  cases log <;> simp [weave, LeaseWait.entry]

/-- Newer events come after every wait that has its place among the older ones. -/
theorem weave_append (newer log : List Event) (ws : List LeaseWait) (h : ∀ w ∈ ws, w.after ≤ log.length) :
    weave (newer ++ log) ws = newer.map .event ++ weave log ws := by
  induction newer with
  | nil => rfl
  | cons e es ih =>
    cases ws with
    | nil => simpa [weave] using ih
    | cons w ws =>
      have hw : decide ((es ++ log).length < w.after) = false := by
        have := h w (List.mem_cons_self ..); simp only [List.length_append, decide_eq_false_iff_not]; omega
      simp only [List.cons_append, List.map_cons, weave, List.takeWhile, List.dropWhile, hw, ← ih, List.map_nil,
        List.nil_append]

/-! ## The end of a command -/

/-- The end of a command that has run: its last bus events, the wrapper's end and the release where a lease is still
held for it, then the response and the free slot (R121, R220, R222). -/
theorem State.endCommand_ran {s : State} {c : Chan} {resp : Option Frame} {release : Bool}
    (h : (s.front c).phase = .ran resp release) :
    s.endCommand c =
      andThen (if release then ((s.finishBus c).closeCommand c).release c else .next (s.finishBus c))
        fun t => .next ((t.deliver c resp).freeSlot c) := by
  unfold State.endCommand; rw [h]

/-- Nothing ends on a channel whose command has not run. -/
theorem State.endCommand_idle {s : State} {c : Chan} (h : (s.front c).phase = .idle) : s.endCommand c = .next s := by
  unfold State.endCommand; rw [h]

end Sys2Proof.Machine
end

