-- ==== Sys2Proof/Laws/PerInstr.lean ====
section
/-! SUPPORT. The family of lemmas made once for each instruction: its encoding stands where its row of the opcode table
says and begins with the bits the row fixes. -/

namespace Sys2Proof.Laws

set_option Elab.async false

/-- The mask and the match of an instruction's row in the opcode table. -/
def tableRow : Instr → Byte × Byte
  | .spiBegin => (0xFF, 0x01)
  | .spiExchange _ => (0xFF, 0x02)
  | .spiEnd => (0xFF, 0x03)
  | .setGpio _ _ => (0xFF, 0x04)
  | .getGpio _ => (0xFF, 0x05)
  | .setClock _ => (0xFF, 0x06)
  | .bootload => (0xFF, 0x07)
  | .dapInfo _ _ => (0xFF, 0x00)
  | .dapHostStatus _ _ _ => (0xFF, 0x01)
  | .dapConnect _ _ => (0xFF, 0x02)
  | .dapDisconnect _ => (0xFF, 0x03)
  | .dapTransferConfigure _ _ _ _ => (0xFF, 0x04)
  | .dapTransfer _ _ _ => (0xFF, 0x05)
  | .dapTransferBlock _ _ _ _ _ => (0xFF, 0x06)
  | .dapTransferAbort _ => (0xFF, 0x07)
  | .dapWriteAbort _ _ _ => (0xFF, 0x08)
  | .dapDelay _ _ => (0xFF, 0x09)
  | .dapResetTarget _ => (0xFF, 0x0A)
  | .dapSwjPins _ _ _ _ => (0xFF, 0x10)
  | .dapSwjClock _ _ => (0xFF, 0x11)
  | .dapSwjSequence _ _ _ => (0xFF, 0x12)
  | .dapSwdConfigure _ _ => (0xFF, 0x13)
  | .swdDpWrite _ _ _ => (0xC7, 0x81)
  | .swdApWrite _ _ _ => (0xC7, 0x83)
  | .swdDpRead _ _ => (0xC7, 0x85)
  | .swdApRead _ _ => (0xC7, 0x87)

/-- The channel whose frame an instruction is (R82, R90); none for a packet of the SWD engine (R102). -/
def tableChan : Instr → Option Chan
  | .spiBegin => some .ch0
  | .spiExchange _ => some .ch0
  | .spiEnd => some .ch0
  | .setGpio _ _ => some .ch0
  | .getGpio _ => some .ch0
  | .setClock _ => some .ch0
  | .bootload => some .ch0
  | .dapInfo d _ => some d.chan
  | .dapHostStatus d _ _ => some d.chan
  | .dapConnect d _ => some d.chan
  | .dapDisconnect d => some d.chan
  | .dapTransferConfigure d _ _ _ => some d.chan
  | .dapTransfer d _ _ => some d.chan
  | .dapTransferBlock d _ _ _ _ => some d.chan
  | .dapTransferAbort d => some d.chan
  | .dapWriteAbort d _ _ => some d.chan
  | .dapDelay d _ => some d.chan
  | .dapResetTarget d => some d.chan
  | .dapSwjPins d _ _ _ => some d.chan
  | .dapSwjClock d _ => some d.chan
  | .dapSwjSequence d _ _ => some d.chan
  | .dapSwdConfigure d _ => some d.chan
  | .swdDpWrite _ _ _ => none
  | .swdApWrite _ _ _ => none
  | .swdDpRead _ _ => none
  | .swdApRead _ _ => none

/-- The encoding of an instruction carries its row's fixed bits in its first byte, on the channel of the row. -/
def TableRow.Statement (i : Instr) : Prop :=
  match encode i with
  | .frame c (b :: _) => some c = tableChan i ∧ b &&& (tableRow i).1 = (tableRow i).2
  | .frame _ [] => False
  | .packet _ bits _ => none = tableChan i ∧ bits &&& (tableRow i).1 = (tableRow i).2

theorem TableRow.spiBegin : TableRow.Statement (.spiBegin) :=
  ⟨rfl, by simp [tableRow]⟩

theorem TableRow.spiExchange (data : List Byte) : TableRow.Statement (.spiExchange data) :=
  ⟨rfl, by simp [tableRow]⟩

theorem TableRow.spiEnd : TableRow.Statement (.spiEnd) :=
  ⟨rfl, by simp [tableRow]⟩

theorem TableRow.setGpio (pin : Byte) (level : Byte) : TableRow.Statement (.setGpio pin level) :=
  ⟨rfl, by simp [tableRow]⟩

theorem TableRow.getGpio (pin : Byte) : TableRow.Statement (.getGpio pin) :=
  ⟨rfl, by simp [tableRow]⟩

theorem TableRow.setClock (hz : Word) : TableRow.Statement (.setClock hz) :=
  ⟨rfl, by simp [tableRow]⟩

theorem TableRow.bootload : TableRow.Statement (.bootload) :=
  ⟨rfl, by simp [tableRow]⟩

theorem TableRow.dapInfo (d : DapCh) (id : Byte) : TableRow.Statement (.dapInfo d id) :=
  ⟨rfl, by simp [tableRow]⟩

theorem TableRow.dapHostStatus (d : DapCh) (type : Byte) (status : Byte) : TableRow.Statement (.dapHostStatus d type status) :=
  ⟨rfl, by simp [tableRow]⟩

theorem TableRow.dapConnect (d : DapCh) (port : Byte) : TableRow.Statement (.dapConnect d port) :=
  ⟨rfl, by simp [tableRow]⟩

theorem TableRow.dapDisconnect (d : DapCh) : TableRow.Statement (.dapDisconnect d) :=
  ⟨rfl, by simp [tableRow]⟩

theorem TableRow.dapTransferConfigure (d : DapCh) (idle : Byte) (w : Half) (m : Half) : TableRow.Statement (.dapTransferConfigure d idle w m) :=
  ⟨rfl, by simp [tableRow]⟩

theorem TableRow.dapTransfer (d : DapCh) (idx : Byte) (reqs : List XferReq) : TableRow.Statement (.dapTransfer d idx reqs) :=
  ⟨rfl, by simp [tableRow]⟩

theorem TableRow.dapTransferBlock (d : DapCh) (idx : Byte) (count : Half) (req : Byte) (data : List Word) : TableRow.Statement (.dapTransferBlock d idx count req data) :=
  ⟨rfl, by simp [tableRow]⟩

theorem TableRow.dapTransferAbort (d : DapCh) : TableRow.Statement (.dapTransferAbort d) :=
  ⟨rfl, by simp [tableRow]⟩

theorem TableRow.dapWriteAbort (d : DapCh) (idx : Byte) (a : Word) : TableRow.Statement (.dapWriteAbort d idx a) :=
  ⟨rfl, by simp [tableRow]⟩

theorem TableRow.dapDelay (d : DapCh) (us : Half) : TableRow.Statement (.dapDelay d us) :=
  ⟨rfl, by simp [tableRow]⟩

theorem TableRow.dapResetTarget (d : DapCh) : TableRow.Statement (.dapResetTarget d) :=
  ⟨rfl, by simp [tableRow]⟩

theorem TableRow.dapSwjPins (d : DapCh) (output : Byte) (select : Byte) (wait : Word) : TableRow.Statement (.dapSwjPins d output select wait) :=
  ⟨rfl, by simp [tableRow]⟩

theorem TableRow.dapSwjClock (d : DapCh) (hz : Word) : TableRow.Statement (.dapSwjClock d hz) :=
  ⟨rfl, by simp [tableRow]⟩

theorem TableRow.dapSwjSequence (d : DapCh) (count : Byte) (data : List Byte) : TableRow.Statement (.dapSwjSequence d count data) :=
  ⟨rfl, by simp [tableRow]⟩

theorem TableRow.dapSwdConfigure (d : DapCh) (config : Byte) : TableRow.Statement (.dapSwdConfigure d config) :=
  ⟨rfl, by simp [tableRow]⟩

theorem TableRow.swdDpWrite (d : DapCh) (a : BitVec 2) (w : Word) : TableRow.Statement (.swdDpWrite d a w) :=
  ⟨rfl, by simp only [tableRow]; revert a; decide⟩

theorem TableRow.swdApWrite (d : DapCh) (a : BitVec 2) (w : Word) : TableRow.Statement (.swdApWrite d a w) :=
  ⟨rfl, by simp only [tableRow]; revert a; decide⟩

theorem TableRow.swdDpRead (d : DapCh) (a : BitVec 2) : TableRow.Statement (.swdDpRead d a) :=
  ⟨rfl, by simp only [tableRow]; revert a; decide⟩

theorem TableRow.swdApRead (d : DapCh) (a : BitVec 2) : TableRow.Statement (.swdApRead d a) :=
  ⟨rfl, by simp only [tableRow]; revert a; decide⟩

end Sys2Proof.Laws
end

