-- ==== Sys2Proof/Tests/Slice0.lean ====
section
/-! SUPPORT. Tests: what the well-formedness check refuses, a written-out word for every instruction, one small step
for each instruction from the spec's examples, and a witness for the hypotheses of each statement. -/

namespace Sys2Proof.Tests

set_option Elab.async false

open Sys2Proof.Machine

/-! ## Well-formedness: one refused term for each check -/

def tiny (n : Nat) : Params := { Params.suggested with bridgeMaxFrame := n }
def smallPacket (n : Nat) : Params := { Params.suggested with dapPktSize := n }

theorem test_wf_begin_frame_too_small : wellFormed (tiny 0) .spiBegin = false := by decide
theorem test_wf_exchange_too_long : wellFormed Params.suggested (.spiExchange (List.replicate 62 0)) = false := by
  decide
theorem test_wf_exchange_count_field : wellFormed (tiny 70000) (.spiExchange (List.replicate 65536 0)) = false := by
  rw [wellFormed, List.length_replicate]; rfl
theorem test_wf_set_gpio : wellFormed (tiny 2) (.setGpio 0 0) = false := by decide
theorem test_wf_get_gpio : wellFormed (tiny 1) (.getGpio 0) = false := by decide
theorem test_wf_set_clock : wellFormed (tiny 4) (.setClock 1) = false := by decide
theorem test_wf_transfer_count : wellFormed Params.suggested (.dapTransfer .v1 0 (List.replicate 256 ⟨0, some 0⟩)) = false := by
  decide +kernel
theorem test_wf_transfer_word_missing : wellFormed Params.suggested (.dapTransfer .v1 0 [⟨0x00, none⟩]) = false := by
  decide
theorem test_wf_transfer_word_extra : wellFormed Params.suggested (.dapTransfer .v1 0 [⟨0x02, some 0⟩]) = false := by
  decide
theorem test_wf_transfer_response : wellFormed Params.suggested (.dapTransfer .v1 0 (List.replicate 16 ⟨0x02, none⟩)) = false := by
  decide
theorem test_wf_block_words : wellFormed Params.suggested (.dapTransferBlock .v1 0 2 0x00 [0]) = false := by decide
theorem test_wf_block_response : wellFormed Params.suggested (.dapTransferBlock .v1 0 16 0x02 []) = false := by decide
theorem test_wf_sequence_bytes : wellFormed Params.suggested (.dapSwjSequence .v1 9 [0xFF]) = false := by decide
theorem test_wf_sequence_256 : wellFormed Params.suggested (.dapSwjSequence .v1 0 (List.replicate 31 0)) = false := by
  decide
theorem test_wf_response : wellFormed (smallPacket 1) (.dapDisconnect .v1) = false := by decide

/-! ## A written-out encoding for every instruction (R82, R90, R102) -/

abbrev dec (c : Chan) (f : Frame) : Except DecodeError Instr := decode Params.suggested (.frame c f)

theorem test_dec_begin : dec .ch0 [0x01] = .ok .spiBegin := rfl
theorem test_dec_exchange : dec .ch0 [0x02, 0x03, 0x00, 0x9F, 0x00, 0x80] = .ok (.spiExchange [0x9F, 0x00, 0x80]) := rfl
theorem test_dec_end : dec .ch0 [0x03] = .ok .spiEnd := rfl
theorem test_dec_set_gpio : dec .ch0 [0x04, 0x02, 0x01] = .ok (.setGpio 0x02 0x01) := rfl
theorem test_dec_get_gpio : dec .ch0 [0x05, 0x03] = .ok (.getGpio 0x03) := rfl
theorem test_dec_set_clock : dec .ch0 [0x06, 0x78, 0x56, 0x34, 0x12] = .ok (.setClock 0x12345678) := rfl
theorem test_dec_bootload : dec .ch0 [0x07] = .ok .bootload := rfl
theorem test_dec_info : dec .ch1 [0x00, 0xF0, 0xAA] = .ok (.dapInfo .v1 0xF0) := rfl
theorem test_dec_host_status : dec .ch2 [0x01, 0x00, 0x01] = .ok (.dapHostStatus .v2 0x00 0x01) := rfl
theorem test_dec_connect : dec .ch1 [0x02, 0x02] = .ok (.dapConnect .v1 0x02) := rfl
theorem test_dec_disconnect : dec .ch2 [0x03] = .ok (.dapDisconnect .v2) := rfl
theorem test_dec_transfer_configure :
    dec .ch1 [0x04, 0x05, 0x34, 0x12, 0xCD, 0xAB] = .ok (.dapTransferConfigure .v1 0x05 0x1234 0xABCD) := rfl
theorem test_dec_transfer :
    dec .ch1 [0x05, 0x00, 0x03, 0x02, 0x08, 0x04, 0x03, 0x02, 0x01, 0x16, 0x01, 0x00, 0x00, 0x00] =
      .ok (.dapTransfer .v1 0 [⟨0x02, none⟩, ⟨0x08, some 0x01020304⟩, ⟨0x16, some 1⟩]) := rfl
theorem test_dec_block :
    dec .ch2 [0x06, 0x07, 0x02, 0x00, 0x0D, 0x01, 0x00, 0x00, 0x00, 0x02, 0x00, 0x00, 0x00] =
      .ok (.dapTransferBlock .v2 0x07 2 0x0D [1, 2]) := rfl
theorem test_dec_transfer_abort : dec .ch1 [0x07] = .ok (.dapTransferAbort .v1) := rfl
theorem test_dec_write_abort : dec .ch1 [0x08, 0x00, 0x1E, 0x00, 0x00, 0x00] = .ok (.dapWriteAbort .v1 0 0x1E) := rfl
theorem test_dec_delay : dec .ch1 [0x09, 0x64, 0x01] = .ok (.dapDelay .v1 0x0164) := rfl
theorem test_dec_reset_target : dec .ch1 [0x0A] = .ok (.dapResetTarget .v1) := rfl
theorem test_dec_swj_pins :
    dec .ch1 [0x10, 0x81, 0x83, 0x00, 0x01, 0x00, 0x00] = .ok (.dapSwjPins .v1 0x81 0x83 0x100) := rfl
theorem test_dec_swj_clock : dec .ch1 [0x11, 0x40, 0x42, 0x0F, 0x00] = .ok (.dapSwjClock .v1 1000000) := rfl
theorem test_dec_swj_sequence : dec .ch1 [0x12, 0x0A, 0xFF, 0x03, 0x55] = .ok (.dapSwjSequence .v1 0x0A [0xFF, 0x03]) :=
  rfl
theorem test_dec_swd_configure : dec .ch1 [0x13, 0x05] = .ok (.dapSwdConfigure .v1 0x05) := rfl
theorem test_dec_dp_write : decode Params.suggested (.packet .v1 0b10110001 7) = .ok (.swdDpWrite .v1 2 7) := by decide
theorem test_dec_ap_write : decode Params.suggested (.packet .v1 0b10001011 7) = .ok (.swdApWrite .v1 1 7) := by decide
theorem test_dec_dp_read : decode Params.suggested (.packet .v1 0b10100101 0) = .ok (.swdDpRead .v1 0) := by decide
theorem test_dec_ap_read : decode Params.suggested (.packet .v2 0b10011111 0) = .ok (.swdApRead .v2 3) := by decide
theorem test_dec_bad_parity : decode Params.suggested (.packet .v1 0b10000101 0) = .error .notAPacket := by decide
theorem test_dec_invalid_id : dec .ch1 [0x14] = .error .invalidId := rfl
theorem test_table_word : decodeTableWord 8 0x85 = some (.swdDpRead .v1 0) ∧ decodeTableWord 8 0x06 = some (.setClock 0) := by
  decide

/-! ## Small states -/

/-- The reset state with every transport attached. -/
def lab : State :=
  { State.reset with
    front0 := { Front.reset with link := .attached }
    front1 := { Front.reset with link := .attached }
    front2 := { Front.reset with link := .attached } }

/-- CH0 in an open transaction, between two frames. -/
def inTxn : State :=
  { lab with
    owner := some .ch0, lastGrant := .ch0, brTxn := true, pinMode := .spi, csN := false
    log := [⟨some .ch0, .pin .csN false⟩, ⟨some .ch0, .grant .ch0⟩, ⟨none, .reset⟩] }

/-- CH1 connected with the bus in SWD mode at rest, and the SWDIO draws `bits` to come. -/
def linked (bits : List Bool) : State :=
  { lab with
    pinMode := .swd, sck := true, sdo := true, swdioOe := true
    dap1 := { DapRegs.reset Params.suggested with dapState := .idle }
    draws := { lab.draws with swdio := bits } }

/-- The lease holder CH1 with a packet's draws at the SWD engine. -/
def engine (bits : List Bool) : State := { linked bits with owner := some .ch1 }

/-- A frame in the slot of a channel. -/
def put (s : State) (c : Chan) (f : Frame) : State := s.setFront c { s.front c with rx := some f }

/-- The response a result leaves on a channel. -/
def resp (r : Result) (c : Chan) : Option Frame :=
  match r with
  | .next t => t.response c
  | _ => none

/-- A field of a result. -/
def see {α : Type} (r : Result) (f : State → α) : Option α :=
  match r with
  | .next t => some (f t)
  | _ => none

/-- CH1 waits for the lease of CH0's transaction. -/
def waiting : State :=
  { inTxn with
    pending := [.ch1]
    front1 := { Front.reset with link := .attached, rx := some [0x03], busy := true, phase := .waiting } }

/-- CH1 has run DAP_Disconnect and still holds its lease. -/
def ran : State :=
  { lab with
    owner := some .ch1, lastGrant := .ch1, log := [⟨some .ch1, .grant .ch1⟩, ⟨none, .reset⟩]
    front1 := { Front.reset with
      link := .attached, rx := some [0x03], busy := true, phase := .ran (some [0x03, 0x00]) true } }

/-- CH1 inside DAP_ResetTarget: RESET_N is low, and the wait and the rising edge lie ahead. -/
def paused : State :=
  { lab with
    owner := some .ch1, lastGrant := .ch1, resetN := false
    log := [⟨some .ch1, .pin .resetN false⟩, ⟨some .ch1, .grant .ch1⟩, ⟨none, .reset⟩]
    ahead := [⟨some .ch1, .wait .rst 1000⟩, ⟨some .ch1, .pin .resetN true⟩]
    front1 := { Front.reset with
      link := .attached, rx := some [0x0A], busy := true, phase := .ran (some [0x0A, 0x00, 0x01]) true } }

/-! ## One step of each instruction; the expected values are the spec's examples -/

/-- R161: BEGIN on an idle bus. -/
theorem test_begin : see (exec .spiBegin lab) (fun t => (t.csN, t.brTxn, t.owner, t.log.length)) =
    some (false, true, some .ch0, 7) := by decide +kernel
/-- R161: SEQUENCING_ERROR. -/
theorem test_begin_twice : resp (exec .spiBegin inTxn) .ch0 = some [0x04] := by decide +kernel
/-- R162: EXCHANGE 9F 00 with MISO FF EF. -/
theorem test_exchange :
    resp (exec (.spiExchange [0x9F, 0x00]) { inTxn with draws := { inTxn.draws with
      miso := [true, true, true, true, true, true, true, true, true, true, true, false, true, true, true, true] } }) .ch0 =
      some [0x00, 0xFF, 0xEF] := by decide +kernel
/-- R163: END logs the CSH wait and the pin, and releases as it ends. -/
theorem test_end : see (exec .spiEnd inTxn) (fun t => (t.csN, t.brTxn, t.log.take 2)) =
    some (true, false, [⟨some .ch0, .pin .csN true⟩, ⟨some .ch0, .wait .csh 1⟩]) := by decide +kernel
/-- R164: POWER_EN on an idle bus. -/
theorem test_set_gpio : see (exec (.setGpio 0x02 0x01) lab) (fun t => (t.powerEn, t.log.take 2)) =
    some (true, [⟨some .ch0, .pin .powerEn true⟩, ⟨some .ch0, .grant .ch0⟩]) := by decide +kernel
/-- R164: CDONE is no output. -/
theorem test_set_gpio_cdone : resp (exec (.setGpio 0x03 0x01) lab) .ch0 = some [0x01] := by decide +kernel
/-- R165: RESET_N reads 1 after reset. -/
theorem test_get_gpio : resp (exec (.getGpio 0x01) lab) .ch0 = some [0x00, 0x01] := by decide +kernel
/-- R166: 1 MHz gives 750000 Hz. -/
theorem test_set_clock : resp (exec (.setClock 1000000) lab) .ch0 = some [0x00, 0xB0, 0x71, 0x0B, 0x00] := by
  decide +kernel
/-- R167: the response is handed over before the trigger. -/
theorem test_bootload : see (exec .bootload lab) (fun t => (t.bootReq, t.front0.sent, t.owner)) =
    some (true, [[0x00]], some .ch0) := by decide +kernel
/-- R224: the packet size. -/
theorem test_info : resp (exec (.dapInfo .v1 0xFF) lab) .ch1 = some [0x00, 0x02, 0x40, 0x00] := by decide +kernel
/-- R225. -/
theorem test_host_status : resp (exec (.dapHostStatus .v2 0x00 0x01) lab) .ch2 = some [0x01, 0x00] := by decide +kernel
/-- R226. -/
theorem test_connect : see (exec (.dapConnect .v1 0x00) lab) (fun t => (t.pinMode, t.dap1.dapState, t.response .ch1)) =
    some (.swd, .idle, some [0x02, 0x01]) := by decide +kernel
/-- R226: JTAG is unsupported. -/
theorem test_connect_jtag : resp (exec (.dapConnect .v1 0x02) lab) .ch1 = some [0x02, 0x00] := by decide +kernel
/-- R227. -/
theorem test_disconnect :
    see (exec (.dapDisconnect .v1) (linked [])) (fun t => (t.pinMode, t.swdioOe, t.dap1.dapState)) =
      some (.hiZ, false, .disconnected) := by decide +kernel
/-- R228. -/
theorem test_transfer_configure : see (exec (.dapTransferConfigure .v1 0 2 0) lab) (fun t => t.dap1.retryCount) =
    some 2 := by decide +kernel
/-- R231: DPIDR 0x2BA01477 (xor32 = 0, R195). -/
theorem test_transfer : resp (exec (.dapTransfer .v1 0 [⟨0x02, none⟩]) (linked ([true, false, false] ++
    bitsOf (0x2BA01477 : Word) ++ [false]))) .ch1 = some [0x05, 0x01, 0x01, 0x77, 0x14, 0xA0, 0x2B] := by decide +kernel
/-- R241: bad parity. -/
theorem test_transfer_parity : resp (exec (.dapTransfer .v1 0 [⟨0x02, none⟩]) (linked ([true, false, false] ++
    bitsOf (0x2BA01477 : Word) ++ [true]))) .ch1 = some [0x05, 0x00, 0x08] := by decide +kernel
/-- R251: a block write whose third element faults. -/
theorem test_block : resp (exec (.dapTransferBlock .v1 0 4 0x0D [1, 2, 3, 4]) (linked
    [true, false, false, true, false, false, false, false, true])) .ch1 = some [0x06, 0x02, 0x00, 0x04] := by
  decide +kernel
/-- R262. -/
theorem test_transfer_abort : see (exec (.dapTransferAbort .v1) lab) (fun t => (t.response .ch1, t.log)) =
    some (none, lab.log) := by decide +kernel
/-- R264: one packet of 46 cycles, ACK ignored. -/
theorem test_write_abort : see (exec (.dapWriteAbort .v1 0 0x1E) (linked [true, false, false]))
    (fun t => (t.response .ch1, swdCycles t.log)) = some (some [0x08, 0x00], 46) := by decide +kernel
/-- R265. -/
theorem test_delay : see (exec (.dapDelay .v1 100) lab) (fun t => t.log.head?) =
    some (some ⟨some .ch1, .wait .delay 100⟩) := by decide +kernel
/-- R266. -/
theorem test_reset_target : see (exec (.dapResetTarget .v1) lab) (fun t => (t.response .ch1, t.log.take 3)) =
    some (some [0x0A, 0x00, 0x01],
      [⟨some .ch1, .pin .resetN true⟩, ⟨some .ch1, .wait .rst 1000⟩, ⟨some .ch1, .pin .resetN false⟩]) := by
  decide +kernel
/-- R267: RESET_N low reads back in bit 7 (SCK and SWDIO are driven high on the connected channel). -/
theorem test_swj_pins : resp (exec (.dapSwjPins .v1 0x00 0x80 0) (linked [])) .ch1 = some [0x10, 0x03] := by
  decide +kernel
/-- R269. -/
theorem test_swj_clock : see (exec (.dapSwjClock .v1 24000000) lab) (fun t => t.dap1.swjDiv) = some .d2 := by
  decide +kernel
/-- R271: bits 0 to 8 of FF 00, exactly nine cycles. -/
theorem test_swj_sequence : see (exec (.dapSwjSequence .v1 9 [0xFF, 0x00]) (linked []))
    (fun t => (swdCycles t.log, t.sdo, t.response .ch1)) = some (9, false, some [0x12, 0x00]) := by decide +kernel
/-- R270: config 0x05. -/
theorem test_swd_configure : see (exec (.dapSwdConfigure .v1 0x05) lab) (fun t => (t.dap1.turnaround, t.dap1.dataPhase)) =
    some (2, true) := by decide +kernel
/-- R200: an OK write takes 46 cycles. -/
theorem test_dp_write : see (exec (.swdDpWrite .v1 0 0x1E) (engine [true, false, false])) (fun t => swdCycles t.log) =
    some 46 := by decide +kernel
/-- R200: a FAULT takes 13 cycles. -/
theorem test_ap_write : see (exec (.swdApWrite .v1 1 0) (engine [false, false, true]))
    (fun t => (swdCycles t.log, t.swdResult)) = some (13, some ⟨0x04, 0⟩) := by decide +kernel
/-- R197: DPIDR. -/
theorem test_dp_read : see (exec (.swdDpRead .v1 0) (engine ([true, false, false] ++ bitsOf (0x2BA01477 : Word) ++
    [false]))) (fun t => t.swdResult) = some (some ⟨0x01, 0x2BA01477⟩) := by decide +kernel
/-- R197: no target answers 0b111 and the engine backs off. -/
theorem test_ap_read : see (exec (.swdApRead .v1 3) (engine [true, true, true]))
    (fun t => (swdCycles t.log, t.swdResult)) = some (46, some ⟨0x07, 0⟩) := by decide +kernel
/-- R325: inside another channel's DAP_ResetTarget, after its first pin event, GET_GPIO reads RESET_N = 0. -/
theorem test_get_gpio_inside : see (exec (.getGpio 0x01) paused) (fun t => (t.response .ch0, t.log.length)) =
    some (some [0x00, 0x00], 3) := by decide +kernel
/-- R73: the events held back happen in order, and the read after them gives 1. -/
theorem test_bus : see (applyMove (.bus 2) paused) (fun t => (t.resetN, t.log.take 2, t.ahead)) =
    some (true, [⟨some .ch1, .pin .resetN true⟩, ⟨some .ch1, .wait .rst 1000⟩], []) := by decide +kernel
/-- R45, R310: a reset inside the command keeps what LOG holds and adds EvReset alone. -/
theorem test_reset_inside : see (applyMove .reset paused) (fun t => (t.resetN, t.log, t.ahead)) =
    some (true, ⟨none, .reset⟩ :: paused.log, []) := by decide +kernel
/-- R282, V14 row 8: a lease wait that ends by timeout leaves LOG as it is; R12: its bound stands in the event log. -/
theorem test_timeout : see (applyMove (.timeout .ch1) waiting) (fun t => (t.response .ch1, t.pending, t.log, t.eventLog)) =
    some (some [0xFF], [], waiting.log, .leaseWait .ch1 100000 :: waiting.log.map .event) := by decide +kernel
/-- R232: an AP read is collected by RDBUFF before a DP write, which is confirmed at the end (packets 0x87, 0xBD, 0xB1,
0xBD). -/
theorem test_mixed_batch : (accessPlan 0 false false [⟨0x03, none⟩, ⟨0x08, some 0⟩]).map (fun a => packetByte a.nibble) =
    [0x87, 0xBD, 0xB1, 0xBD] := by decide +kernel
/-- A table word placed where the next step fetches it runs as the first instruction after reset. -/
theorem test_fetch : see (step (State.reset.withFetchWord 8 0x05)) (fun t => t.response .ch0) =
    some (some [0x00, 0x01]) := by decide +kernel

/-! ## Witnesses: a concrete state and operands that meet the hypotheses of each statement -/

theorem inv_of {s : State} (h1 : s.pending.Nodup) (h2 : ∀ c, s.owner = some c → c ∉ s.pending)
    (h3 : s.owner = none → s.pending = []) (h4 : ∀ c, c ∈ s.pending ↔ (s.front c).phase = .waiting)
    (h5 : ∀ c, (s.front c).busy = false ↔ (s.front c).phase = .idle)
    (h6 : ∀ c, ((s.front c).busy = true → (s.front c).rx ≠ none) ∧
      ((s.front c).link = .detached → (s.front c).rx = none ∧ (s.front c).phase = .idle) ∧
      ((s.front c).phase = .waiting ∨ (s.front c).phase = .granted → s.wantsLease c = true) ∧
      ((s.front c).phase.holdsLease = true → s.owner = some c) ∧
      (s.owner = some c → s.bootReq = true ∨ (s.front c).phase.holdsLease = true ∨ (c = .ch0 ∧ s.brTxn = true)))
    (h7 : (s.brTxn = true → s.owner = some .ch0 ∧ (s.front .ch0).phase.holdsLease = false ∧ s.pinMode = .spi ∧
      s.sck = false) ∧ (s.brTxn = false → s.settled.csN = true) ∧ (s.pinMode = .swd → s.swdioOe = true))
    (h8 : ∀ d : DapCh, ((s.dap d).xferFsm = .idle ∧ (s.dap d).dapState ≠ .transferInProgress ∧
      (s.dap d).batch = Batch.init) ∧ 1 ≤ (s.dap d).turnaround ∧ (s.dap d).turnaround ≤ 4)
    (h9 : s.swdPort = none ∧ leasedLog s.log = some s.owner ∧
      (s.ahead = [] ∨ (s.owner = some .ch1 ∧ (s.front .ch1).phase.hasRun = true)) ∧
      (∀ e ∈ s.ahead, ownerAfter s.owner e = some s.owner) ∧ ∀ w ∈ s.leaseWaits, w.after ≤ s.log.length) : s.Inv :=
  ⟨h1, h2, h3, h4, h5, fun c => (h6 c).1, fun c => (h6 c).2.1, fun c => (h6 c).2.2.1, fun c => (h6 c).2.2.2.1,
    fun h => (h7.1 h).1, fun h => (h7.1 h).2.1, fun c => (h6 c).2.2.2.2, fun h => (h7.1 h).2.2, h7.2.1, h7.2.2,
    fun d _ => (h8 d).1, fun d => (h8 d).2, h9.1, h9.2.1, fun h => ⟨.ch1, h9.2.2.1.resolve_left h⟩, h9.2.2.2.1, h9.2.2.2.2⟩

theorem wit_lab_inv : lab.Inv := by
  refine inv_of (by decide) ?_ (by decide) ?_ ?_ ?_ (by decide) ?_ (by decide +kernel) <;>
    (intro x; cases x <;> decide +kernel)
theorem wit_inTxn_inv : inTxn.Inv := by
  refine inv_of (by decide) ?_ (by decide) ?_ ?_ ?_ (by decide) ?_ (by decide +kernel) <;>
    (intro x; cases x <;> decide +kernel)
theorem wit_waiting_inv : waiting.Inv := by
  refine inv_of (by decide) ?_ (by decide) ?_ ?_ ?_ (by decide) ?_ (by decide +kernel) <;>
    (intro x; cases x <;> decide +kernel)
theorem wit_ran_inv : ran.Inv := by
  refine inv_of (by decide) ?_ (by decide) ?_ ?_ ?_ (by decide) ?_ (by decide +kernel) <;>
    (intro x; cases x <;> decide +kernel)

theorem wit_paused_inv : paused.Inv := by
  refine inv_of (by decide) ?_ (by decide) ?_ ?_ ?_ (by decide) ?_ (by decide +kernel) <;>
    (intro x; cases x <;> decide +kernel)

/-- The lease is free in `lab` and in `linked`: every channel can lease. -/
theorem wit_lab_lease (c : Chan) : lab.CanLease c := .inr ⟨by cases c <;> decide, rfl, rfl⟩
theorem wit_linked_lease (bits : List Bool) (c : Chan) : (linked bits).CanLease c :=
  .inr ⟨by cases c <;> simp [linked, State.front, lab, Front.reset], rfl, rfl⟩
/-- The other way to a lease: granted after a wait. -/
theorem wit_granted_lease : State.CanLease ({ lab with owner := some .ch1 }.setPhase .ch1 .granted) .ch1 :=
  .inl ⟨rfl, rfl⟩
theorem wit_linked_connected (bits : List Bool) : ((linked bits).dap .v1).dapState ≠ .disconnected := by
  simp [linked, State.dap]

theorem wit_EncodeDecodeRoundTrip : wellFormed Params.suggested (.spiExchange (List.replicate 61 0x9F)) = true := by
  decide
theorem wit_BridgeDecodeExact : decode Params.suggested (.frame .ch0 [0x02, 0x01, 0x00, 0x9F]) = .ok (.spiExchange [0x9F]) :=
  rfl
theorem wit_DapDecodePrefix : decode Params.suggested (.frame DapCh.v1.chan [0x03, 0x55]) = .ok (.dapDisconnect .v1) := rfl
theorem wit_InfoTable : (0x05 : Byte) ∉ [(0x01 : Byte), 0x02, 0x03, 0x04, 0x09, 0xF0, 0xFE, 0xFF] := by decide
theorem wit_RateSelLeast : Params.suggested.fRef ≤ 750000 * dividerValue .d64 ∧
    ∀ d : Divider, ¬ Params.suggested.fRef ≤ 187499 * dividerValue d :=
  ⟨by decide, fun d => by cases d <;> decide⟩
theorem wit_RateExamples : Params.suggested.fRef = 48000000 := rfl
theorem wit_StepKeepsInv : lab.Inv ∧ { lab with sched := [.run [.ch0] 0] }.sched = [.run [.ch0] 0] ∧
    see (step { ran with sched := [.run [.ch1] 0] }) (fun t => t.owner) = some none :=
  ⟨wit_lab_inv, rfl, by decide +kernel⟩
theorem wit_StepNeverStops : waiting.Inv := wit_waiting_inv
theorem wit_StepRunsDecoded :
    ((put lab .ch0 [0x01]).front .ch0).phase = .idle ∧ ((put lab .ch0 [0x01]).front .ch0).rx = some [0x01] ∧
      (put lab .ch0 [0x01]).bootReq = false ∧ decode lab.cfg (.frame .ch0 [0x01]) = .ok .spiBegin ∧
      (((put lab .ch1 [0x03]).setPhase .ch1 .granted).front .ch1).phase = .granted ∧
      decode lab.cfg (.frame .ch1 [0x03]) = .ok (.dapDisconnect .v1) ∧
      decode lab.cfg (.packet .v1 0xA5 0) = .ok (.swdDpRead .v1 0) := ⟨rfl, rfl, rfl, rfl, rfl, rfl, by decide⟩
theorem wit_MalformedFrames :
    ((0x00 : Byte).toNat = 0 ∧ 8 ≤ (0x08 : Byte).toNat) ∧
    (requiredLenBridge [0x04, 0x00] = some 3 ∧ ([0x04, 0x00] : Frame).length ≠ 3) ∧
    (requiredLenBridge (0x02 :: 0x3E :: 0x00 :: List.replicate 62 0) = some 65 ∧ Params.suggested.bridgeMaxFrame < 65) ∧
    (10 < (0x0B : Byte).toNat ∧ (0x0F : Byte).toNat < 16 ∧ 19 < (0x14 : Byte).toNat) ∧
    (dapFields .v1 [0x06, 0x00, 0x10, 0x00, 0x02] = .ok (.dapTransferBlock .v1 0 16 0x02 []) ∧
      Params.suggested.dapPktSize < maxResponseLen Params.suggested (.dapTransferBlock .v1 0 16 0x02 [])) ∧
    (decode lab.cfg (.frame .ch1 []) = .error .emptyFrame ∧ ((put lab .ch1 []).front .ch1).rx = some []) := by
  refine ⟨by decide, by decide, by decide, by decide, ⟨rfl, by decide⟩, rfl, rfl⟩
theorem wit_LeaseWait : Instr.takesLease (.dapDisconnect .v1) = true ∧ inTxn.owner = some .ch0 ∧
    Chan.ch0 ≠ Instr.chan (.dapDisconnect .v1) ∧ Instr.chan (.dapDisconnect .v1) ∉ inTxn.pending := by decide
theorem wit_CommandEnds : ({ ran with pending := [.ch2] }.owner = some .ch1 ∧ Chan.ch1 ∉ [Chan.ch2] ∧ [Chan.ch2].Nodup) ∧
    (ran.front .ch1).phase = .ran (some [0x03, 0x00]) true ∧
    ran.owner = some .ch1 ∧ ran.pending = [] ∧
    ((inTxn.respond .ch0 (some [0x00]) false).front .ch0).phase =
      .ran (some [0x00]) false :=
  ⟨by decide, rfl, rfl, rfl, rfl⟩
theorem wit_ReleaseGrantsNext : lab.owner ≠ some .ch0 ∧ (inTxn.owner = some .ch0 ∧ inTxn.pending = []) ∧
    waiting.owner = some .ch0 ∧ waiting.pending = [.ch1] ∧ Chan.ch1 ∉ ([] : List Chan) := by decide
theorem wit_TimeoutBusy : waiting.bootReq = false ∧ Chan.ch1 ∈ waiting.pending ∧ Chan.ch2 ∉ waiting.pending := by decide
theorem wit_SameCycleRoundRobin :
    (let s := put (put inTxn .ch1 [0x03]) .ch2 [0x0A]
     s.owner = some .ch0 ∧ Chan.ch0 ∉ [Chan.ch2, .ch1] ∧
       ∀ c ∈ [Chan.ch2, .ch1], c ∉ s.pending ∧ (s.front c).phase = .idle ∧ (s.front c).busy = false ∧
         s.wantsLease c = true) ∧
    (let s := put (put lab .ch1 [0x03]) .ch0 [0x01]
     s.owner = none ∧ s.pending = [] ∧ [Chan.ch0, .ch1, .ch2].filter (· ∈ [Chan.ch1, .ch0]) = .ch0 :: [.ch1] ∧
       ∀ c ∈ [Chan.ch1, .ch0], (s.front c).phase = .idle ∧ (s.front c).busy = false ∧ s.wantsLease c = true) := by
  decide +kernel
theorem wit_PendingShape : waiting.Inv ∧ waiting.owner = some .ch0 := ⟨wit_waiting_inv, rfl⟩
theorem wit_LeaseExclusion : inTxn.Inv ∧
    inTxn.log = [] ++ [⟨some .ch0, .pin .csN false⟩] ++ ⟨some .ch0, .grant .ch0⟩ :: [⟨none, .reset⟩] ∧
    ∀ e ∈ [(⟨some .ch0, .pin .csN false⟩ : Event)], e.kind ≠ .release .ch0 ∧ e.kind ≠ .reset :=
  ⟨wit_inTxn_inv, rfl, by decide⟩
theorem wit_DetachReleases :
    (waiting.Inv ∧ (waiting.front .ch1).phase = .waiting ∧ (waiting.front .ch1).link = .attached) ∧
    (waiting.front .ch0).link = .attached ∧ waiting.brTxn = true ∧ waiting.pending = [.ch1] ∧ waiting.bootReq = false ∧
    (paused.Inv ∧ (paused.front .ch1).link = .attached ∧ paused.bootReq = false ∧ paused.ahead ≠ []) ∧
    (inTxn.Inv ∧ (inTxn.front .ch1).link = .attached ∧ (inTxn.front .ch1).phase = .idle ∧ inTxn.csN = false) :=
  ⟨⟨wit_waiting_inv, rfl, rfl⟩, rfl, rfl, rfl, rfl, ⟨wit_paused_inv, rfl, rfl, by decide⟩, wit_inTxn_inv, rfl, rfl, rfl⟩
theorem wit_AttachAndArrive : lab.bootReq = false ∧ (lab.front .ch0).link = .attached ∧ (lab.front .ch0).rx = none ∧
    (lab.front .ch0).busy = false ∧ (State.reset.front .ch0).link = .detached ∧ (ran.front .ch1).busy = true := by decide
theorem wit_QuiescentRests : lab.Inv ∧ lab.Quiescent ∧ lab.bootReq = false ∧ inTxn.Inv ∧ inTxn.Quiescent :=
  ⟨wit_lab_inv, ⟨fun c => by cases c <;> decide, rfl⟩, rfl, wit_inTxn_inv, ⟨fun c => by cases c <;> decide, rfl⟩⟩
theorem wit_ChannelIsolation : pacedStep 1 .ch0 lab = .next lab ∧
    ∀ e ∈ paused.ahead, ∀ l, e.kind ≠ .pin .csN l ∧ e.kind ≠ .pin .powerEn l := by
  refine ⟨rfl, ?_⟩
  simp [paused]
theorem wit_CsWriteSequence : lab.csN = true ∧ inTxn.csN = false := ⟨rfl, rfl⟩
theorem wit_BeginOpensTransaction : (lab.brTxn = false ∧ lab.CanLease .ch0) ∧ inTxn.brTxn = true :=
  ⟨⟨rfl, wit_lab_lease _⟩, rfl⟩
theorem wit_ExchangeRuns : (inTxn.brTxn = true ∧ inTxn.owner = some .ch0 ∧ inTxn.pinMode = .spi) ∧ lab.brTxn = false :=
  ⟨⟨rfl, rfl, rfl⟩, rfl⟩
theorem wit_ExchangeReadsMiso :
    { inTxn with draws := { inTxn.draws with miso := [true, false, false, false, false, false, false, true] } }.draws.miso =
      [(0x81 : Byte)].flatMap (fun b => [b.getLsbD 7, b.getLsbD 6, b.getLsbD 5, b.getLsbD 4, b.getLsbD 3, b.getLsbD 2,
        b.getLsbD 1, b.getLsbD 0]) ++ [] := by decide
theorem wit_EndClosesTransaction : inTxn.brTxn = true ∧ inTxn.owner = some .ch0 ∧ lab.brTxn = false := ⟨rfl, rfl, rfl⟩
theorem wit_SetGpioWrites : (2 < (0x03 : Byte).toNat ∧ 1 < (0x02 : Byte).toNat) ∧ (0x01 : Byte).toNat ≤ 1 ∧
    (inTxn.brTxn = true ∧ inTxn.owner = some .ch0) ∧ lab.brTxn = false ∧ lab.CanLease .ch0 :=
  ⟨by decide, by decide, ⟨rfl, rfl⟩, rfl, wit_lab_lease _⟩
theorem wit_GetGpioReads : (lab.ahead = [] ∧ (see (exec (.dapResetTarget .v1) lab) fun t => t.resetN) = some true) ∧
    paused.bootReq = false ∧ 3 < (0x04 : Byte).toNat ∧
    { lab with draws := { lab.draws with cdone := [true] } }.draws.cdone = [true] := by decide +kernel
theorem wit_SetClockSelects : (1 : Word) ≠ 0 := by decide
theorem wit_BootloadLeavesService : (inTxn.brTxn = true ∧ inTxn.owner = some .ch0) ∧
    (lab.brTxn = false ∧ lab.CanLease .ch0) ∧ { lab with bootReq := true }.bootReq = true ∧
    Move.attach .ch0 ≠ .reset := ⟨⟨rfl, rfl⟩, ⟨rfl, wit_lab_lease _⟩, rfl, by decide⟩
theorem wit_TransactionOnTheWire : lab.Inv ∧ lab.brTxn = false ∧ lab.owner = none ∧ (lab.front .ch0).phase = .idle :=
  ⟨wit_lab_inv, rfl, rfl, rfl⟩
theorem wit_SwdPacketOnTheWire : PacketBits 0x2 (okRead 5) ∧ PacketBits 0x0 okWrite ∧ PacketBits 0x2 waitBits ∧
    (linked (okRead 5 ++ [true])).draws.swdio = okRead 5 ++ [true] := by
  refine ⟨?_, ?_, ?_, rfl⟩ <;> decide
theorem wit_PacketRowsRun : lab.owner ≠ some DapCh.v1.chan ∧
    ({ lab with owner := some .ch1 }.owner = some DapCh.v1.chan ∧ lab.pinMode ≠ .swd) ∧
    (engine okWrite).owner = some DapCh.v1.chan ∧ (engine okWrite).pinMode = .swd ∧
    (engine okWrite).draws.swdio = okWrite ++ [] := by decide
theorem wit_ParityNeverOk : (0x2 : Nibble).getLsbD 1 = true ∧
    (linked ([true, false, false] ++ bitsOf (7 : Word) ++ [false] ++ [])).draws.swdio =
      [true, false, false] ++ bitsOf (7 : Word) ++ [false] ++ [] := by decide
theorem wit_RetryBudget :
    (linked ((List.replicate 100 waitBits).flatten ++ okWrite ++ [])).draws.swdio =
      (List.replicate 100 waitBits).flatten ++ okWrite ++ [] ∧
    100 ≤ ((linked []).dap .v1).retryCount.toNat ∧ ((linked []).dap .v1).retryCount.toNat < 101 :=
  ⟨rfl, by decide, by decide⟩
theorem wit_BusStart : (linked []).pinMode = .swd ∧ lab.pinMode ≠ .swd := by decide
theorem wit_InformationCommands : lab.CanLease DapCh.v1.chan ∧ lab.CanLease DapCh.v2.chan :=
  ⟨wit_lab_lease _, wit_lab_lease _⟩
theorem wit_ConnectAndDisconnect : lab.CanLease DapCh.v1.chan ∧ (0x01 : Byte).toNat ≤ 1 ∧ 1 < (0x02 : Byte).toNat ∧
    lab.pinMode ≠ .swd ∧ (linked []).CanLease DapCh.v1.chan ∧ (linked []).pinMode = .swd :=
  ⟨wit_lab_lease _, by decide, by decide, by decide, wit_linked_lease _ _, rfl⟩
theorem wit_ConfigurationCommands : lab.CanLease DapCh.v2.chan ∧ (1 : Word) ≠ 0 := ⟨wit_lab_lease _, by decide⟩
theorem wit_DelayAndResetTarget : lab.CanLease DapCh.v1.chan := wit_lab_lease _
theorem wit_NotConnectedAnswers : lab.CanLease DapCh.v1.chan ∧ (lab.dap .v1).dapState = .disconnected ∧
    (linked []).CanLease DapCh.v1.chan := ⟨wit_lab_lease _, rfl, wit_linked_lease _ _⟩
theorem wit_WriteAbortSendsOnePacket : (linked ([false, false, true] ++ [])).CanLease DapCh.v1.chan ∧
    ((linked ([false, false, true] ++ [])).dap .v1).dapState ≠ .disconnected ∧
    (linked ([false, false, true] ++ [])).draws.swdio = [false, false, true] ++ [] :=
  ⟨wit_linked_lease _ _, wit_linked_connected _, rfl⟩
theorem wit_SwjSequenceExact : (linked []).CanLease DapCh.v1.chan ∧ ((linked []).dap .v1).dapState ≠ .disconnected :=
  ⟨wit_linked_lease _ _, wit_linked_connected _⟩
theorem wit_SwjPinsDrivesAndReads : (linked []).CanLease DapCh.v1.chan ∧ lab.CanLease DapCh.v1.chan ∧
    (lab.dap .v1).dapState = .disconnected := ⟨wit_linked_lease _ _, wit_lab_lease _, rfl⟩
theorem wit_TransfersComplete : (linked []).CanLease DapCh.v1.chan ∧ ((linked []).dap .v1).dapState ≠ .disconnected ∧
    ([⟨0x02, none⟩] : List XferReq).length < 256 ∧ ([] : List XferReq).length < 256 ∧ (1 : Half) ≠ 0 ∧ (0x00 : Byte).getLsbD 1 = false ∧
    ([7] : List Word).length = (1 : Half).toNat := ⟨wit_linked_lease _ _, wit_linked_connected _, by decide⟩
theorem wit_ResponsesFit : Instr.chan (.dapDisconnect .v1) = DapCh.v1.chan ∧ lab.response DapCh.v1.chan = none ∧
    resp (exec (.dapDisconnect .v1) lab) .ch1 = some [0x03, 0x00] ∧
    wellFormed lab.cfg (.dapDisconnect .v1) = true := by decide +kernel
theorem wit_ReadRetryBudget : (linked ((List.replicate 101 waitBits).flatten ++ okRead 5 ++ [])).CanLease DapCh.v1.chan ∧
    ((linked ((List.replicate 101 waitBits).flatten ++ okRead 5 ++ [])).dap .v1).dapState ≠ .disconnected ∧
    ((linked []).dap .v1).retryCount.toNat < 101 := ⟨wit_linked_lease _ _, wit_linked_connected _, by decide⟩
theorem wit_PostedReadsPipelined :
    (let reqs : List XferReq := [⟨0xC3, none⟩, ⟨0x50, some 5⟩, ⟨0x20, some 1⟩, ⟨0x12, some 1⟩]
     let plan := accessPlan 0 false false reqs
     let runs := List.zip plan [0, 7, 0, 3]
     reqs ≠ [] ∧ reqs.length < 256 ∧ plan.length = 4 ∧ (∀ x ∈ runs, x.1.accepts x.2 = true)) ∧
    (linked ([0, 7].flatMap okRead ++ [])).CanLease DapCh.v1.chan ∧
    ([(7, 2)] : List (BitVec 3 × BitVec 2)) ≠ [] ∧
    ([7] : List Word).length = ([(7, 2)] : List (BitVec 3 × BitVec 2)).length ∧
    (linked ([0, 7].flatMap okRead ++ [])).draws.swdio = (0 :: [7]).flatMap okRead ++ [] :=
  ⟨by decide +kernel, wit_linked_lease _ _, by decide, rfl, rfl⟩
theorem wit_WritesConfirmed : PacketBits 0xE (okRead 0) ∧ PacketBits 0xE [false, false, true] ∧
    (linked ((List.replicate 1 okWrite).flatten ++ okRead 0 ++ [])).draws.swdio =
      (List.replicate [(((3 : BitVec 2), (1 : BitVec 1)), false, (2 : BitVec 2), (0 : Word))].length okWrite).flatten ++ okRead 0 ++ [] ∧
    (ackOf ((okRead 0).take 3) = ackWait → ((linked []).dap .v1).retryCount = 0) := by
  refine ⟨?_, ?_, rfl, ?_⟩ <;> decide
theorem wit_MaskAndMatch : (0x20 : Byte).getLsbD 1 = false ∧ (0x20 : Byte).getLsbD 5 = true ∧
    (linked (([0] : List Word).flatMap okRead ++ [])).draws.swdio = ([0] : List Word).flatMap okRead ++ [] ∧
    (∀ x ∈ ([0] : List Word).dropLast, x &&& ((linked []).dap .v1).matchMask ≠ 1) ∧
    ([0] : List Word).length = ((linked []).dap .v1).matchRetry.toNat + 1 := by
  refine ⟨by decide, by decide, rfl, by simp, rfl⟩
theorem wit_FailureEndsBatch :
    let s := linked [false, false, true]
    s.CanLease DapCh.v1.chan ∧ (s.dap .v1).dapState ≠ .disconnected ∧
    (oneRequest .v1 ⟨0x02, none⟩ (transferLoop .v1 [] (batchStart .v1 (s.leased DapCh.v1.chan)))).respValue .v1 ≠ ackOk :=
  ⟨wit_linked_lease _ _, wit_linked_connected _, by decide +kernel⟩
theorem wit_BlockReadPipeline : (1 : Half) ≠ 0 ∧ ([7] : List Word).length = (1 : Half).toNat ∧
    (linked ([0, 7].flatMap okRead ++ [])).draws.swdio = (([0] : List Word) ++ [7]).flatMap okRead ++ [] := by
  refine ⟨by decide, rfl, rfl⟩
theorem wit_BlockWriteConfirmed : ([7] : List Word).length = (1 : Half).toNat ∧ PacketBits 0xE [false, false, true] ∧
    (linked (okWrite ++ [false, false, true])).draws.swdio =
      (List.replicate ([7] : List Word).length okWrite).flatten ++ [false, false, true] ++ [] :=
  ⟨rfl, by decide, rfl⟩
theorem wit_BlockFaultPosition :
    FailedAccess ((linked []).dap .v1) 0x0 [false, false, true] ackFault ∧
    FailedAccess ((linked []).dap .v1) 0x2 ((List.replicate 101 waitBits).flatten) ackWait ∧
    FailedAccess ((linked []).dap .v1) 0x2 ([true, false, false] ++ bitsOf (1 : Word) ++ [!xor32 1]) ackParity ∧
    0 < (1 : Half).toNat ∧
    (linked ((List.replicate 0 okWrite).flatten ++ [false, false, true] ++ [])).draws.swdio =
      (List.replicate 0 okWrite).flatten ++ [false, false, true] ++ [] :=
  ⟨.inl (by decide), .inr (.inl ⟨rfl, rfl⟩), .inr (.inr ⟨by decide, ⟨1, rfl⟩, rfl⟩), by decide, rfl⟩

end Sys2Proof.Tests
end

section
/-! SUPPORT. The log over time (R12, R45, R134): no operation of the block drops an event of LOG, and a log that is a
sequence of leases gives every stretch to its holder. -/

namespace Sys2Proof.Machine

/-! ## The timeout of a lease wait -/

/-- The timeout of a waiting channel, as one update and the end of its command (R128, R282). -/
theorem State.timeout_waiting {s : State} {c : Chan} (h : c ∈ s.pending) :
    s.timeout c = { s with
      pending := s.pending.filter (· ≠ c)
      leaseWaits := ⟨c, s.cfg.tLeaseWait, s.log.length⟩ :: s.leaseWaits }.answersKeeping c (busyResponse c) :=
  (if_pos h).trans (by cases c <;> rfl)

theorem State.timeout_other {s : State} {c : Chan} (h : c ∉ s.pending) : s.timeout c = s := if_neg h

/-- The busy responses of R282 as bytes. -/
theorem busyResponse_eq (c : Chan) : busyResponse c = if c = .ch0 then [0x02] else [0xFF] := by
  cases c <;> rfl

/-- Settles O18: the timeout's one update gives both records, and the recorded wait is the newest entry. -/
theorem timeoutBusy : Obligations.TimeoutBusy := by
  intro s c hservice
  have hmove : applyMove (.timeout c) s = .next (s.timeout c) := by simp [applyMove, hservice]
  refine ⟨fun hwaits => ⟨_, hmove, ?_, ?_, ?_⟩, fun hfree => by rw [hmove, State.timeout_other hfree]⟩
  · rw [State.timeout_waiting hwaits, busyResponse_eq]
  · simp [State.timeout_waiting hwaits, State.answersKeeping]
  · simp only [State.timeout_waiting hwaits, State.answersKeeping, State.eventLog, State.respond_log,
      State.respond_leaseWaits]
    exact weave_wait s.log s.leaseWaits c s.cfg.tLeaseWait

/-! ## Growth of LOG -/

/-- From `s` to `t` LOG loses no event (R45), and no lease wait is recorded (R12). -/
def LogGrows (s t : State) : Prop := s.log <:+ t.log ∧ t.leaseWaits = s.leaseWaits

/-- A change of registers that are neither LOG nor the recorded lease waits. -/
theorem LogGrows.of_eq {s t : State} (hl : t.log = s.log) (hw : t.leaseWaits = s.leaseWaits) : LogGrows s t :=
  ⟨by rw [hl], hw⟩

theorem LogGrows.refl (s : State) : LogGrows s s := .of_eq rfl rfl

theorem LogGrows.trans {s t u : State} (h : LogGrows s t) (k : LogGrows t u) : LogGrows s u :=
  have ⟨hlog, hwaits⟩ := h
  have ⟨klog, kwaits⟩ := k
  ⟨hlog.trans klog, kwaits.trans hwaits⟩

/-- A choice grows LOG where both its branches do. -/
theorem LogGrows.ite {p : Prop} [Decidable p] {s t u : State} (h : LogGrows s t) (k : LogGrows s u) :
    LogGrows s (if p then t else u) := by
  split
  · exact h
  · exact k

/-- A further operation that runs only on a condition. -/
theorem LogGrows.thenIf {p : Prop} [Decidable p] {s t u : State} (h : LogGrows s t) (k : LogGrows t u) :
    LogGrows s (if p then u else t) :=
  .ite (h.trans k) h

/-- Under a growing LOG the event log of R12 grows too, where every recorded wait has its place in LOG. -/
theorem LogGrows.eventLog {s t : State} (h : LogGrows s t) (hw : ∀ w ∈ s.leaseWaits, w.after ≤ s.log.length) :
    ∃ newer, t.eventLog = newer ++ s.eventLog := by
  obtain ⟨⟨newer, hl⟩, hlw⟩ := h
  exact ⟨newer.map .event, by simp only [State.eventLog, hlw, ← hl, weave_append newer s.log s.leaseWaits hw]⟩

/-! ### Registers, draws and pins -/

theorem logEv_grows (s : State) (k : EventKind) : LogGrows s (s.logEv k) := ⟨List.suffix_cons _ _, rfl⟩

/-- An event recorded after LOG has grown. -/
theorem LogGrows.logEv {s t : State} (h : LogGrows s t) (k : EventKind) : LogGrows s (t.logEv k) :=
  h.trans (logEv_grows t k)

theorem setFront_grows (s : State) (c : Chan) (f : Front) : LogGrows s (s.setFront c f) := .of_eq (by simp) (by simp)

theorem setPhase_grows (s : State) (c : Chan) (p : Phase) : LogGrows s (s.setPhase c p) := .of_eq (by simp) (by simp)

theorem respond_grows (s : State) (c : Chan) (r : Option Frame) (b : Bool) : LogGrows s (s.respond c r b) :=
  setPhase_grows s c _

theorem setDap_grows (s : State) (d : DapCh) (r : DapRegs) : LogGrows s (s.setDap d r) := .of_eq (by simp) (by simp)

theorem setBatch_grows (s : State) (d : DapCh) (b : Batch) : LogGrows s (s.setBatch d b) := setDap_grows s d _

theorem drawBit_grows (s : State) (src : BitSource) : LogGrows s (s.drawBit src).2 := by
  rw [State.drawBit_eq]; exact .of_eq rfl rfl

theorem drawElapsed_grows (s : State) (n : Nat) : LogGrows s (s.drawElapsed n).2 := by
  rw [State.drawElapsed_eq]; exact .of_eq rfl rfl

theorem readPin_grows (s : State) (p : Pin) : LogGrows s (s.readPin p).2 := by
  rw [State.readPin_eq]; exact .of_eq rfl rfl

theorem setPin_grows (s : State) (p : OutPin) (v : Bool) : LogGrows s (s.setPin p v) := by
  cases p <;> exact ⟨List.suffix_cons _ _, rfl⟩

theorem csWrite_grows (s : State) (v : Bool) : LogGrows s (s.csWrite v) :=
  .ite (((logEv_grows s _).trans (setPin_grows _ _ _)).logEv _)
    (.ite ((logEv_grows s _).trans (setPin_grows _ _ _)) (setPin_grows s _ _))

theorem setPinMode_grows (s : State) (m : PinMode) : LogGrows s (s.setPinMode m) := ⟨List.suffix_cons _ _, rfl⟩

theorem setActiveDiv_grows (s : State) (d : Divider) : LogGrows s (s.setActiveDiv d) := ⟨List.suffix_cons _ _, rfl⟩

theorem setSwdio_grows (s : State) (oe l : Bool) : LogGrows s (s.setSwdio oe l) := ⟨List.suffix_cons _ _, rfl⟩

theorem swdSetup_grows (s : State) : LogGrows s s.swdSetup :=
  (LogGrows.of_eq rfl rfl : LogGrows s { s with sck := true, sdo := true, swdioOe := true }).trans
    ((setPinMode_grows _ _).logEv _)

theorem busStart_grows (s : State) (d : DapCh) : LogGrows s (s.busStart d) :=
  (LogGrows.ite (.refl s) (swdSetup_grows s)).trans (setActiveDiv_grows _ _)

/-! ### The wire -/

theorem driveBit_grows (s : State) (b : Bool) : LogGrows s (s.driveBit b) := ⟨List.suffix_cons _ _, rfl⟩

theorem clockCycle_grows (s : State) : LogGrows s s.clockCycle := ⟨List.suffix_cons _ _, rfl⟩

theorem sampleBit_grows (s : State) : LogGrows s s.sampleBit.2 := by
  have hdraw : LogGrows s ({ s with sck := false }.drawBit .swdio).2 := drawBit_grows { s with sck := false } .swdio
  exact hdraw.trans ⟨List.suffix_cons _ _, rfl⟩

theorem driveBits_grows (bs : List Bool) (s : State) : LogGrows s (driveBits bs s) := by
  induction bs generalizing s with
  | nil => exact .refl s
  | cons b bs ih => exact (driveBit_grows s b).trans (ih _)

theorem clockCycles_grows (n : Nat) (s : State) : LogGrows s (clockCycles n s) := by
  induction n generalizing s with
  | zero => exact .refl s
  | succ n ih => exact (clockCycle_grows s).trans (ih _)

theorem sampleBits_grows (n : Nat) (s : State) : LogGrows s (sampleBits n s).2 := by
  induction n generalizing s with
  | zero => exact .refl s
  | succ n ih => exact (sampleBit_grows s).trans (ih _)

theorem swdRequest_grows (d : DapCh) (r : Nibble) (s : State) : LogGrows s (swdRequest d r s).2 :=
  (((driveBits_grows _ s).trans (setSwdio_grows _ _ _)).trans (clockCycles_grows _ _)).trans (sampleBits_grows _ _)

theorem swdIdle_grows (d : DapCh) (s : State) : LogGrows s (swdIdle d s) :=
  (driveBits_grows _ s).trans (setSwdio_grows _ _ _)

theorem swdReadPhase_grows (d : DapCh) (s : State) : LogGrows s (swdReadPhase d s).2 :=
  ((((sampleBits_grows 32 s).trans (sampleBit_grows _)).trans (clockCycles_grows _ _)).trans
    (setSwdio_grows _ _ _)).trans (swdIdle_grows d _)

theorem swdWritePhase_grows (d : DapCh) (w : Word) (s : State) : LogGrows s (swdWritePhase d w s).2 :=
  ((((clockCycles_grows _ s).trans (setSwdio_grows _ _ _)).trans (driveBits_grows _ _)).trans
    (driveBit_grows _ _)).trans (swdIdle_grows d _)

theorem swdNackPhase_grows (d : DapCh) (r : Nibble) (s : State) : LogGrows s (swdNackPhase d r s) := by
  have hread := LogGrows.ite (p := ((s.dap d).dataPhase && r.getLsbD 1) = true) (clockCycles_grows 33 s) (.refl s)
  have hline := (hread.trans (clockCycles_grows (s.dap d).turnaround _)).trans (setSwdio_grows _ true true)
  exact (hline.thenIf (driveBits_grows _ _)).trans (setSwdio_grows _ _ _)

theorem swdBackOff_grows (d : DapCh) (s : State) : LogGrows s (swdBackOff d s) :=
  (clockCycles_grows _ s).trans (setSwdio_grows _ _ _)

/-- One SWD transfer only adds to LOG (R197). -/
theorem swdXfer_grows (d : DapCh) (r : Nibble) (w : Word) (s : State) : LogGrows s (swdXfer d r w s).2 := by
  have hreq := swdRequest_grows d r s
  simp only [swdXfer]
  split
  · split
    · exact hreq.trans (swdReadPhase_grows d _)
    · exact hreq.trans (swdWritePhase_grows d w _)
  · split
    · exact hreq.trans (swdNackPhase_grows d r _)
    · exact hreq.trans (swdBackOff_grows d _)

theorem swdRetryLoop_grows (d : DapCh) (r : Nibble) (w : Word) (n : Nat) (s : State) :
    LogGrows s (swdRetryLoop d r w n s).2 := by
  induction n generalizing s with
  | zero => exact swdXfer_grows d r w s
  | succ n ih =>
    have hxfer := swdXfer_grows d r w s
    simp only [swdRetryLoop]
    split
    · exact (((hxfer.trans (setBatch_grows _ d _)).trans (setDap_grows _ d _)).trans (setDap_grows _ d _)).trans (ih _)
    · exact hxfer

theorem swdXferRetry_grows (d : DapCh) (r : Nibble) (w : Word) (s : State) :
    LogGrows s (swdXferRetry d r w s).2 :=
  (((setBatch_grows s d _).trans (setDap_grows _ d _)).trans (swdRetryLoop_grows d r w _ _)).trans (setDap_grows _ d _)

theorem swjBits_grows (bs : List Bool) (s : State) : LogGrows s (swjBits bs s) :=
  (setSwdio_grows s _ _).trans (driveBits_grows _ _)

theorem spiBits_grows (bs : List Bool) (s : State) : LogGrows s (spiBits bs s).2 := by
  induction bs generalizing s with
  | nil => exact .refl s
  | cons b bs ih =>
    have hdraw : LogGrows s ({ s with sdo := b, sck := true }.drawBit .miso).2 :=
      drawBit_grows { s with sdo := b, sck := true } .miso
    exact hdraw.trans (ih { ({ s with sdo := b, sck := true }.drawBit .miso).2 with sck := false })

theorem spiXferByte_grows (tx : Byte) (s : State) : LogGrows s (spiXferByte tx s).2 :=
  (spiBits_grows (spiWireBits tx) s).logEv _

theorem spiExchangeBytes_grows (data : List Byte) (s : State) : LogGrows s (spiExchangeBytes data s).2 := by
  induction data generalizing s with
  | nil => exact .refl s
  | cons tx txs ih => exact (spiXferByte_grows tx s).trans (ih _)

/-! ### The Resource Arbiter and the Pin/Bus Controller -/

theorem arbitrate_grows (s : State) : LogGrows s s.arbitrate := by
  obtain ⟨c, -, -, -, hgrant⟩ | ⟨-, hsame⟩ := s.arbitrate_cases
  · rw [hgrant]
    exact (setPhase_grows { s with pending := s.pending.filter (· ≠ c), owner := some c, lastGrant := c } c
      .granted).logEv (.grant c)
  · rw [hsame]
    exact .refl s

theorem acquire_grows (s : State) (c : Chan) : LogGrows s (s.acquire c) :=
  (setPhase_grows { s with pending := s.pending ++ [c] } c .waiting).trans (arbitrate_grows _)

theorem playEvents_grows (n : Nat) (s : State) : LogGrows s (playEvents n s) := by
  obtain ⟨hbus, hlog, -⟩ := playEvents_spec n s
  exact ⟨⟨_, hlog.symm⟩, by rw [hbus]⟩

theorem finishBus_grows (s : State) (c : Chan) : LogGrows s (s.finishBus c) :=
  .ite (playEvents_grows _ s) (.refl s)

/-- Holding events back keeps LOG as it was before the command, and puts back what is not held (log entry 7). -/
theorem holdBack_grows {s t : State} (c : Chan) (hold : Nat) (h : LogGrows s t) : LogGrows s (s.holdBack c hold t) := by
  have hfrom (es : List Event) : LogGrows s
      { t with log := s.log, ahead := es, csN := s.csN, resetN := s.resetN, powerEn := s.powerEn } := .of_eq rfl h.2
  exact .ite ((hfrom _).trans (playEvents_grows _ _)) h

/-! ### Batches of transfers -/

theorem access_grows (d : DapCh) (r : Nibble) (w : Word) (s : State) : LogGrows s (access d r w s).2 :=
  (swdXferRetry_grows d r w s).trans (setBatch_grows _ d _)

theorem accessEmit_grows (d : DapCh) (r : Nibble) (s : State) : LogGrows s (accessEmit d r s) :=
  (access_grows d r 0 s).thenIf (setBatch_grows _ d _)

theorem batchStart_grows (d : DapCh) (s : State) : LogGrows s (batchStart d s) :=
  ((busStart_grows s d).trans (setDap_grows _ d _)).trans (setBatch_grows _ d _)

theorem collect_grows (d : DapCh) (req : Byte) (s : State) : LogGrows s (collect d req s) :=
  .ite (accessEmit_grows d _ s) ((accessEmit_grows d _ s).trans (setBatch_grows _ d _))

theorem plainRead_grows (d : DapCh) (req : Byte) (s : State) : LogGrows s (plainRead d req s) :=
  .ite (.ite (.refl s) ((access_grows d _ 0 s).thenIf (setBatch_grows _ d _))) (accessEmit_grows d _ s)

theorem matchLoop_grows (d : DapCh) (r : Nibble) (m : Word) (n : Nat) (s : State) :
    LogGrows s (matchLoop d r m n s) := by
  induction n generalizing s with
  | zero =>
    have hread := access_grows d r 0 s
    exact .ite hread (.ite hread (hread.trans (setBatch_grows _ d _)))
  | succ n ih =>
    have hread := access_grows d r 0 s
    exact .ite hread (.ite hread ((hread.trans (setBatch_grows _ d _)).trans (ih _)))

theorem matchStart_grows (d : DapCh) (r : Nibble) (m : Word) (s : State) : LogGrows s (matchStart d r m s) :=
  (setBatch_grows s d _).trans (matchLoop_grows d r m _ _)

theorem matchRead_grows (d : DapCh) (req : Byte) (m : Word) (s : State) : LogGrows s (matchRead d req m s) :=
  .ite ((access_grows d _ 0 s).thenIf (matchStart_grows d _ m _)) (matchStart_grows d _ m s)

theorem regWrite_grows (d : DapCh) (req : Byte) (w : Word) (s : State) : LogGrows s (regWrite d req w s) :=
  (access_grows d _ w s).thenIf (setBatch_grows _ d _)

theorem requestBody_grows (d : DapCh) (q : XferReq) (s : State) : LogGrows s (requestBody d q s) := by
  have hread := LogGrows.ite (p := reqIsMatch q.req = true) (matchRead_grows d q.req (reqWord q) s)
    (plainRead_grows d q.req s)
  have hmask : LogGrows s (maskWrite d (reqWord q) s) := (setDap_grows s d _).trans (setBatch_grows _ d _)
  exact .ite (hread.thenIf (setBatch_grows _ d _)) (.ite hmask (regWrite_grows d q.req (reqWord q) s))

theorem oneRequest_grows (d : DapCh) (q : XferReq) (s : State) : LogGrows s (oneRequest d q s) :=
  .ite ((collect_grows d q.req s).thenIf (requestBody_grows d q _)) (requestBody_grows d q s)

theorem transferLoop_grows (d : DapCh) (reqs : List XferReq) (s : State) : LogGrows s (transferLoop d reqs s) := by
  induction reqs generalizing s with
  | nil => exact .refl s
  | cons q qs ih => exact (oneRequest_grows d q s).thenIf ((setBatch_grows _ d _).trans (ih _))

theorem transferFinish_grows (d : DapCh) (s : State) : LogGrows s (transferFinish d s) :=
  .ite (.refl s) (.ite ((accessEmit_grows d _ s).trans (setBatch_grows _ d _))
    (.ite ((access_grows d _ 0 s).trans (setBatch_grows _ d _)) (.refl s)))

/-- A batch of DAP_Transfer only adds to LOG (R231). -/
theorem transferBatch_grows (d : DapCh) (reqs : List XferReq) (s : State) : LogGrows s (transferBatch d reqs s) :=
  ((batchStart_grows d s).trans (transferLoop_grows d reqs _)).trans (transferFinish_grows d _)

theorem blockRead_grows (d : DapCh) (r : Nibble) (n : Nat) (s : State) : LogGrows s (blockRead d r n s) := by
  induction n generalizing s with
  | zero => exact .refl s
  | succ n ih =>
    have hread := accessEmit_grows d (if n = 0 ∧ r.getLsbD 0 = true then rdbuff else r) s
    exact hread.thenIf ((setBatch_grows _ d _).trans (ih _))

theorem blockWrite_grows (d : DapCh) (r : Nibble) (ws : List Word) (s : State) : LogGrows s (blockWrite d r ws s) := by
  induction ws generalizing s with
  | nil => exact .refl s
  | cons w ws ih => exact (access_grows d r w s).thenIf ((setBatch_grows _ d _).trans (ih _))

/-- A block of DAP_TransferBlock only adds to LOG (R245). -/
theorem blockBatch_grows (d : DapCh) (m : Nat) (req : Byte) (data : List Word) (s : State) :
    LogGrows s (blockBatch d m req data s) := by
  have hstart := batchStart_grows d s
  have hpost := hstart.trans (access_grows d (reqNibble req) 0 _)
  have hwrite := hstart.trans (blockWrite_grows d (reqNibble req) data _)
  exact .ite
    (.ite (hpost.thenIf (blockRead_grows d _ m _)) (hstart.trans (blockRead_grows d _ m _)))
    (hwrite.thenIf (access_grows d rdbuff 0 _))

/-! ### Pins of a DAP channel -/

theorem swjPinsWrite_grows (d : DapCh) (output select : Byte) (s : State) :
    LogGrows s (swjPinsWrite d output select s) := by
  have hsck (t : State) (b : Bool) : LogGrows t ({ t with sck := b }.logEv (.pin .sck b)) :=
    ⟨List.suffix_cons _ _, rfl⟩
  exact (((LogGrows.refl s).thenIf (busStart_grows s d)).thenIf (hsck _ _)).thenIf (setSwdio_grows _ true _)
    |>.thenIf (setPin_grows _ _ _)

theorem pinWait_grows (output select : Byte) (wait : Word) (s : State) :
    LogGrows s (pinWait output select wait s) :=
  .ite (.refl s) (.ite (logEv_grows s _) (.ite ((drawElapsed_grows s _).logEv _) (logEv_grows s _)))

theorem releaseSwdPins_grows (s : State) : LogGrows s (releaseSwdPins s) :=
  .ite ⟨List.suffix_cons _ _, rfl⟩ (.refl s)

/-! ### The end of a command -/

theorem deliver_grows (s : State) (c : Chan) (resp : Option Frame) : LogGrows s (s.deliver c resp) := by
  unfold State.deliver
  split
  · exact setFront_grows s c _
  · exact .refl s

theorem closeCommand_grows (s : State) (c : Chan) : LogGrows s (s.closeCommand c) := by
  unfold State.closeCommand
  split
  · exact setDap_grows s _ _
  · exact .refl s

theorem bootTrigger_grows (s : State) : LogGrows s (bootTrigger s) :=
  ((deliver_grows s .ch0 _).trans (setFront_grows _ .ch0 _)).logEv .boot

theorem resetInterpreter_grows (s : State) (c : Chan) : LogGrows s (s.resetInterpreter c) := by
  unfold State.resetInterpreter
  split
  · exact setDap_grows s _ _
  · exact .of_eq rfl rfl

/-! ### Outcomes -/

/-- If `o` is a next state, LOG has only grown from `s` to it. -/
def GrowsTo (s : State) (o : Result) : Prop := ∀ t, o = .next t → LogGrows s t

theorem GrowsTo.next {s t : State} (h : LogGrows s t) : GrowsTo s (.next t) := by
  rintro _ ⟨⟩; exact h

theorem GrowsTo.fault (s : State) (f : Fault) : GrowsTo s (.fault f) := fun _ h => absurd h (by simp)

theorem GrowsTo.refused (s : State) (r : Refusal) : GrowsTo s (.refused r) := fun _ h => absurd h (by simp)

theorem GrowsTo.ite {p : Prop} [Decidable p] {s : State} {o u : Result} (h : GrowsTo s o) (k : GrowsTo s u) :
    GrowsTo s (if p then o else u) := by
  split
  · exact h
  · exact k

/-- What goes on from a next state goes on from its LOG. -/
theorem GrowsTo.andThen {s : State} {o : Result} {k : State → Result} (h : GrowsTo s o)
    (hk : ∀ u, LogGrows s u → GrowsTo s (k u)) : GrowsTo s (andThen o k) := by
  intro t ht
  obtain ⟨u, ho, hku⟩ := andThen_next.mp ht
  exact hk u (h u ho) t hku

theorem LogGrows.growsTo {s t : State} {o : Result} (h : LogGrows s t) (k : GrowsTo t o) : GrowsTo s o :=
  fun u hu => h.trans (k u hu)

theorem release_grows (s : State) (c : Chan) : GrowsTo s (s.release c) := by
  intro t ht
  obtain ⟨-, rfl⟩ := State.release_next.mp ht
  have hrel : LogGrows s { s.logEv (.release c) with owner := none } := ⟨List.suffix_cons _ _, rfl⟩
  exact hrel.trans (arbitrate_grows _)

theorem onBus_grows {k : State → State} (hk : ∀ t, LogGrows t (k t)) (c : Chan) (s : State) :
    GrowsTo s (onBus c k s) := by
  intro t ht
  obtain ⟨-, rfl⟩ := onBus_next.mp ht
  exact hk s

/-- A command that takes the lease only adds to LOG if its bus action does (R124, R125). -/
theorem underLease_grows {k : State → State} (hk : ∀ t, LogGrows t (k t)) (c : Chan) (s : State) :
    GrowsTo s (underLease c k s) := by
  intro t ht
  obtain ⟨-, -, rfl⟩ | ⟨-, -, -, rfl⟩ := underLease_next.mp ht
  · exact hk s
  · exact .ite ((acquire_grows s c).trans (hk _)) (acquire_grows s c)

theorem leasedCommand_grows {k : State → Frame × State} (hk : ∀ t, LogGrows t (k t).2) (c : Chan) (s : State) :
    GrowsTo s (leasedCommand c k s) :=
  underLease_grows (fun t => (hk t).trans (respond_grows _ c _ _)) c s

/-- A command that answers in one of two ways. -/
theorem LogGrows.snd_ite {p : Prop} [Decidable p] {s : State} {x y : Frame × State} (h : LogGrows s x.2)
    (k : LogGrows s y.2) : LogGrows s (if p then x else y).2 := by
  split
  · exact h
  · exact k

theorem endCommand_grows (s : State) (c : Chan) : GrowsTo s (s.endCommand c) := by
  unfold State.endCommand
  split
  · have hbus := finishBus_grows s c
    refine .andThen (.ite ?_ (.next hbus)) fun u hu => .next ?_
    · exact (hbus.trans (closeCommand_grows _ c)).growsTo (release_grows _ c)
    · exact (hu.trans (deliver_grows u c _)).trans (setFront_grows _ c _)
  · exact .next (.refl s)

theorem detachCleanup_grows (s : State) (c : Chan) : GrowsTo s (s.detachCleanup c) := by
  have hclose (t : State) : LogGrows t { t.csWrite true with brTxn := false } := csWrite_grows t true
  refine .andThen (.ite (.andThen ?_ fun t ht => ht.growsTo (release_grows t _)) (.next (.refl s))) fun u hu => .next ?_
  · exact onBus_grows hclose _ s
  · exact (hu.trans (setFront_grows u c _)).trans (resetInterpreter_grows _ c)

/-! ### Instructions -/

theorem raise_grows (s : State) (c : Chan) (f : Frame) : GrowsTo s (.next (s.raise c f)) :=
  .next (respond_grows s c _ _)

theorem setOutput_grows (p : OutPin) (v : Bool) (s : State) : GrowsTo s (setOutput p v s) := by
  have hset (t : State) := (setPin_grows t p v).trans (respond_grows _ .ch0 (some (bridgeReply [])) false)
  have hpin := onBus_grows hset .ch0 s
  have hlease := leasedCommand_grows (k := fun t => (bridgeReply [], t.setPin p v)) (fun t => setPin_grows t p v) .ch0 s
  cases p with
  | csN =>
    exact .ite (raise_grows s _ _) (onBus_grows (fun t => (csWrite_grows t v).trans (respond_grows _ _ _ _)) _ s)
  | resetN => exact .ite hpin hlease
  | powerEn => exact .ite hpin hlease

theorem execGetGpio_grows (pin : Byte) (s : State) : GrowsTo s (execGetGpio pin s) := by
  have hread (p : Pin) := (readPin_grows s p).trans
    (respond_grows _ .ch0 (some (bridgeReply [levelByte (s.readPin p).1])) false)
  unfold execGetGpio
  split
  · exact .next (hread _)
  · exact .next (hread _)
  · exact raise_grows s _ _

theorem execSetGpio_grows (pin level : Byte) (s : State) : GrowsTo s (execSetGpio pin level s) := by
  unfold execSetGpio
  split
  · exact setOutput_grows _ _ s
  · exact raise_grows s _ _

theorem beginTransaction_grows (s : State) : LogGrows s (beginTransaction s) := by
  have hspi : LogGrows s s.spiSetup := ⟨List.suffix_cons _ _, rfl⟩
  exact ((hspi.trans (setActiveDiv_grows _ s.brDiv)).trans (csWrite_grows _ false)).trans (.of_eq rfl rfl)

theorem runPacket_grows (d : DapCh) (r : Nibble) (w : Word) (s : State) : GrowsTo s (runPacket d r w s) :=
  .ite (.fault s _) (.ite (.fault s _) (.next ((swdXfer_grows d r w s).trans (.of_eq rfl rfl))))

theorem execSpiBegin_grows (s : State) : GrowsTo s (execSpiBegin s) := by
  have hbegin (t : State) := (beginTransaction_grows t).trans (respond_grows _ .ch0 (some (bridgeReply [])) false)
  exact .ite (raise_grows s _ _) (underLease_grows hbegin _ s)

theorem execSpiExchange_grows (data : List Byte) (s : State) : GrowsTo s (execSpiExchange data s) := by
  have hrun := (spiExchangeBytes_grows data s).trans
    (respond_grows _ .ch0 (some (bridgeReply (spiExchangeBytes data s).1)) false)
  exact .ite (raise_grows s _ _) (.ite (.fault s _) (.ite (.fault s _) (.next hrun)))

theorem execSpiEnd_grows (s : State) : GrowsTo s (execSpiEnd s) := by
  have hclose (t : State) : LogGrows t { t.csWrite true with brTxn := false } := csWrite_grows t true
  exact .ite (raise_grows s _ _) (onBus_grows (fun t => (hclose t).trans (respond_grows _ _ _ _)) _ s)

theorem execSetClock_grows (hz : Word) (s : State) : GrowsTo s (execSetClock hz s) := by
  have hdiv : LogGrows s { s with brDiv := rateSel s.cfg hz.toNat } := .of_eq rfl rfl
  exact .ite (raise_grows s _ _) (.next (hdiv.trans (respond_grows _ _ _ _)))

theorem execBootload_grows (s : State) : GrowsTo s (execBootload s) := by
  exact .ite (onBus_grows bootTrigger_grows _ s) (underLease_grows bootTrigger_grows _ s)

theorem execDapInfo_grows (d : DapCh) (id : Byte) (s : State) : GrowsTo s (execDapInfo d id s) := by
  unfold execDapInfo
  exact leasedCommand_grows (fun t => .refl t) d.chan s

theorem execDapHostStatus_grows (d : DapCh) (type status : Byte) (s : State) :
    GrowsTo s (execDapHostStatus d type status s) := by
  unfold execDapHostStatus
  exact leasedCommand_grows (fun t => .refl t) d.chan s

theorem execDapConnect_grows (d : DapCh) (port : Byte) (s : State) : GrowsTo s (execDapConnect d port s) := by
  unfold execDapConnect
  refine leasedCommand_grows (fun t => .snd_ite ?_ ?_) d.chan s
  · exact ((setDap_grows t d _).trans (swdSetup_grows _)).trans (setActiveDiv_grows _ _)
  · exact .refl t

theorem execDapDisconnect_grows (d : DapCh) (s : State) : GrowsTo s (execDapDisconnect d s) := by
  unfold execDapDisconnect
  exact leasedCommand_grows (fun t => (setDap_grows t d _).trans (releaseSwdPins_grows _)) d.chan s

theorem execDapTransferConfigure_grows (d : DapCh) (idle : Byte) (waitRetry matchRetry : Half) (s : State) :
    GrowsTo s (execDapTransferConfigure d idle waitRetry matchRetry s) := by
  unfold execDapTransferConfigure
  exact leasedCommand_grows (fun t => setDap_grows t d _) d.chan s

theorem execDapTransfer_grows (d : DapCh) (idx : Byte) (reqs : List XferReq) (s : State) :
    GrowsTo s (execDapTransfer d idx reqs s) := by
  unfold execDapTransfer
  refine leasedCommand_grows (fun t => .snd_ite ?_ ?_) d.chan s
  · exact transferBatch_grows d reqs t
  · exact .refl t

theorem execDapTransferBlock_grows (d : DapCh) (idx : Byte) (count : Half) (req : Byte) (data : List Word) (s : State) :
    GrowsTo s (execDapTransferBlock d idx count req data s) := by
  unfold execDapTransferBlock
  refine leasedCommand_grows (fun t => .snd_ite ?_ ?_) d.chan s
  · exact blockBatch_grows d _ req data t
  · exact .refl t

theorem execDapWriteAbort_grows (d : DapCh) (idx : Byte) (abort : Word) (s : State) :
    GrowsTo s (execDapWriteAbort d idx abort s) := by
  unfold execDapWriteAbort
  refine leasedCommand_grows (fun t => .snd_ite ?_ ?_) d.chan s
  · exact (busStart_grows t d).trans (swdXfer_grows d abortReg abort _)
  · exact .refl t

theorem execDapDelay_grows (d : DapCh) (us : Half) (s : State) : GrowsTo s (execDapDelay d us s) := by
  unfold execDapDelay
  exact leasedCommand_grows (fun t => logEv_grows t _) d.chan s

theorem execDapResetTarget_grows (d : DapCh) (s : State) : GrowsTo s (execDapResetTarget d s) := by
  unfold execDapResetTarget
  exact leasedCommand_grows (fun t => ((setPin_grows t _ _).logEv _).trans (setPin_grows _ _ _)) d.chan s

theorem execDapSwjPins_grows (d : DapCh) (output select : Byte) (wait : Word) (s : State) :
    GrowsTo s (execDapSwjPins d output select wait s) := by
  unfold execDapSwjPins
  refine leasedCommand_grows (fun t => ?_) d.chan s
  have hwait := (swjPinsWrite_grows d output select t).trans (pinWait_grows output select wait _)
  exact (hwait.trans (readPin_grows _ .sck)).trans (readPin_grows _ .mosi)

theorem execDapSwjClock_grows (d : DapCh) (hz : Word) (s : State) : GrowsTo s (execDapSwjClock d hz s) := by
  unfold execDapSwjClock
  refine leasedCommand_grows (fun t => .snd_ite ?_ ?_) d.chan s
  · exact .refl t
  · exact setDap_grows t d _

theorem execDapSwjSequence_grows (d : DapCh) (count : Byte) (data : List Byte) (s : State) :
    GrowsTo s (execDapSwjSequence d count data s) := by
  unfold execDapSwjSequence
  refine leasedCommand_grows (fun t => .snd_ite ?_ ?_) d.chan s
  · exact (busStart_grows t d).trans (swjBits_grows _ _)
  · exact .refl t

theorem execDapSwdConfigure_grows (d : DapCh) (config : Byte) (s : State) :
    GrowsTo s (execDapSwdConfigure d config s) := by
  unfold execDapSwdConfigure
  exact leasedCommand_grows (fun t => setDap_grows t d _) d.chan s

/-- Every instruction only adds to LOG (R45). -/
theorem exec_grows (i : Instr) (s : State) : GrowsTo s (exec i s) := by
  cases i with
  | spiBegin => exact execSpiBegin_grows s
  | spiExchange data => exact execSpiExchange_grows data s
  | spiEnd => exact execSpiEnd_grows s
  | setGpio pin level => exact execSetGpio_grows pin level s
  | getGpio pin => exact execGetGpio_grows pin s
  | setClock hz => exact execSetClock_grows hz s
  | bootload => exact execBootload_grows s
  | dapInfo d id => exact execDapInfo_grows d id s
  | dapHostStatus d type status => exact execDapHostStatus_grows d type status s
  | dapConnect d port => exact execDapConnect_grows d port s
  | dapDisconnect d => exact execDapDisconnect_grows d s
  | dapTransferConfigure d idle w m => exact execDapTransferConfigure_grows d idle w m s
  | dapTransfer d idx reqs => exact execDapTransfer_grows d idx reqs s
  | dapTransferBlock d idx count req data => exact execDapTransferBlock_grows d idx count req data s
  | dapTransferAbort d => exact .next (respond_grows s _ _ _)
  | dapWriteAbort d idx abort => exact execDapWriteAbort_grows d idx abort s
  | dapDelay d us => exact execDapDelay_grows d us s
  | dapResetTarget d => exact execDapResetTarget_grows d s
  | dapSwjPins d output select wait => exact execDapSwjPins_grows d output select wait s
  | dapSwjClock d hz => exact execDapSwjClock_grows d hz s
  | dapSwjSequence d count data => exact execDapSwjSequence_grows d count data s
  | dapSwdConfigure d config => exact execDapSwdConfigure_grows d config s
  | swdDpWrite d a w => exact runPacket_grows d _ w s
  | swdApWrite d a w => exact runPacket_grows d _ w s
  | swdDpRead d a => exact runPacket_grows d _ 0 s
  | swdApRead d a => exact runPacket_grows d _ 0 s

/-! ### Agents and moves -/

theorem runFrame_grows (c : Chan) (f : Frame) (s : State) : GrowsTo s (runFrame c f s) := by
  unfold runFrame
  split
  · exact exec_grows _ s
  · exact raise_grows s c _

theorem channelStep_grows (c : Chan) (s : State) : GrowsTo s (channelStep c s) := by
  unfold channelStep
  split
  · exact .ite (.next (.refl s)) ((setFront_grows s c _).growsTo (runFrame_grows c _ _))
  · exact runFrame_grows c _ s
  · exact endCommand_grows s c
  all_goals exact .next (.refl s)

theorem pacedStep_grows (hold : Nat) (c : Chan) (s : State) : GrowsTo s (pacedStep hold c s) :=
  (channelStep_grows c s).andThen fun _ ht => .next (holdBack_grows c hold ht)

/-- The agents of one cycle, in any order, only add to LOG. -/
theorem runCycle_grows (hold : Nat) (cs : List Chan) (s : State) : GrowsTo s (runCycle hold cs s) := by
  have hfold (order : List Chan) (o : Result) (h : GrowsTo s o) :
      GrowsTo s (order.foldl (fun o c => andThen o (pacedStep hold c)) o) := by
    induction order generalizing o with
    | nil => exact h
    | cons c order ih => exact ih _ (h.andThen fun t ht => ht.growsTo (pacedStep_grows hold c t))
  exact hfold _ _ (.next (.refl s))

theorem engineStep_grows (s : State) : GrowsTo s (engineStep s) := by
  unfold engineStep
  split
  · exact .next (.refl s)
  · split
    · exact exec_grows _ s
    · exact .refused s _

theorem arrive_grows (s : State) (c : Chan) (f : Frame) : LogGrows s (s.arrive c f) :=
  .ite (setFront_grows s c _) (.refl s)

theorem detachCommand_grows (c : Chan) (s : State) : GrowsTo s (detachCommand c s) := by
  unfold detachCommand
  split
  · exact .next ((LogGrows.of_eq rfl rfl : LogGrows s (s.leavePending c)).trans (setFront_grows _ c _))
  · split
    · exact (runFrame_grows c _ s).andThen fun t ht => ht.growsTo (endCommand_grows t c)
    · exact endCommand_grows s c
    all_goals exact .next (.refl s)

theorem detachStep_grows (c : Chan) (s : State) : GrowsTo s (detachStep c s) := by
  have hcommand := (setFront_grows s c { s.front c with link := .detached }).growsTo (detachCommand_grows c _)
  exact .ite (hcommand.andThen fun t ht => ht.growsTo (detachCleanup_grows t c)) (.next (.refl s))

/-- Every move but the timeout of a lease wait only adds to LOG, a reset too (R310). -/
theorem applyMove_grows {m : Move} (hm : ∀ c, m ≠ .timeout c) (s : State) : GrowsTo s (applyMove m s) := by
  have hrest : GrowsTo s (.next s) := .next (.refl s)
  cases m with
  | reset => exact .next ⟨List.suffix_cons _ _, rfl⟩
  | arrive c f => exact .ite hrest (.next (arrive_grows s c f))
  | attach c => exact .ite hrest (.next (setFront_grows s c _))
  | detach c arriving =>
    refine .ite hrest ((detachStep_grows c s).andThen fun t ht => ?_)
    cases arriving with
    | none => exact .next ht
    | some f => exact .next (ht.trans (arrive_grows t c f))
  | timeout c => exact absurd rfl (hm c)
  | run cs hold => exact .ite hrest (runCycle_grows hold cs s)
  | bus n => exact .ite hrest (.next (playEvents_grows n s))
  | engine => exact .ite hrest (engineStep_grows s)

/-- Taking the next move changes neither LOG nor the recorded lease waits. -/
theorem nextMove_logs (s : State) : (nextMove s).2.log = s.log ∧ (nextMove s).2.leaseWaits = s.leaseWaits := by
  unfold nextMove
  split <;> exact ⟨rfl, rfl⟩

/-- `t` comes from `s` by the end of a lease wait: LOG stays as it is, and the wait is recorded after every event of
LOG (R12, R128). -/
def RecordsWait (s t : State) : Prop :=
  t.log = s.log ∧ ∃ c n, t.leaseWaits = ⟨c, n, s.log.length⟩ :: s.leaseWaits

theorem timeout_logs (s : State) (c : Chan) : LogGrows s (s.timeout c) ∨ RecordsWait s (s.timeout c) := by
  by_cases hwaits : c ∈ s.pending
  · right
    rw [State.timeout_waiting hwaits]
    exact ⟨State.respond_log .., c, s.cfg.tLeaseWait, State.respond_leaseWaits ..⟩
  · exact .inl (.of_eq (by rw [State.timeout_other hwaits]) (by rw [State.timeout_other hwaits]))

/-- A move grows LOG and records no lease wait, or records one lease wait and leaves LOG as it is. -/
theorem applyMove_logs {m : Move} {s t : State} (h : applyMove m s = .next t) : LogGrows s t ∨ RecordsWait s t := by
  by_cases htimeout : ∃ c, m = .timeout c
  · obtain ⟨c, rfl⟩ := htimeout
    simp only [applyMove] at h
    split at h <;> obtain rfl := Host.Outcome.next.inj h
    · exact .inl (.refl _)
    · exact timeout_logs s c
  · exact .inl (applyMove_grows (fun c hc => htimeout ⟨c, hc⟩) s t h)

/-- A step grows LOG and records no lease wait, or records one lease wait and leaves LOG as it is. -/
theorem step_logs {s t : State} (h : step s = .next t) : LogGrows s t ∨ RecordsWait s t := by
  obtain ⟨hlog, hwaits⟩ := nextMove_logs s
  have hmove := applyMove_logs h
  simpa only [LogGrows, RecordsWait, hlog, hwaits] using hmove

/-- No step drops an event of LOG (R45). -/
theorem step_log_suffix {s t : State} (h : step s = .next t) : s.log <:+ t.log := by
  obtain ⟨hgrows, -⟩ | ⟨hsame, -⟩ := step_logs h
  · exact hgrows
  · rw [hsame]

/-- A step only adds to the event log of R12, where every recorded wait has its place in LOG. -/
theorem step_eventLog {s t : State} (hw : ∀ w ∈ s.leaseWaits, w.after ≤ s.log.length) (h : step s = .next t) :
    ∃ newer, t.eventLog = newer ++ s.eventLog := by
  obtain hgrows | ⟨hlog, c, n, hwaits⟩ := step_logs h
  · exact hgrows.eventLog hw
  · exact ⟨[.leaseWait c n], by simp only [State.eventLog, hlog, hwaits, weave_wait, List.singleton_append]⟩

/-! ## The log as a sequence of leases -/

/-- The older part of a log that is a sequence of leases is one too. -/
theorem leasedLog_append {newer older : List Event} {o : Option Chan} (h : leasedLog (newer ++ older) = some o) :
    ∃ o', leasedLog older = some o' := by
  induction newer generalizing o with
  | nil => exact ⟨o, h⟩
  | cons e es ih =>
    cases hes : leasedLog (es ++ older) with
    | none => simp [leasedLog, hes] at h
    | some o' => exact ih hes

/-- The last event of a log of leases follows from the owner that the log before it leaves. -/
theorem leasedLog_cons {e : Event} {es : List Event} {o : Option Chan} :
    leasedLog (e :: es) = some o ↔ ∃ o', leasedLog es = some o' ∧ ownerAfter o' e = some o := by
  cases h : leasedLog es <;> simp [leasedLog, h]

/-- After a grant to `c` the owner is `c`. -/
theorem ownerAfter_grant {o o' : Option Chan} {e : Event} {c : Chan} (hk : e.kind = .grant c)
    (h : ownerAfter o e = some o') : o' = some c := by
  simp only [ownerAfter, hk] at h
  split at h
  · exact (Option.some.inj h).symm
  · exact absurd h (by simp)

/-- What R134 says of an event inside a lease of `c`: its tag is `c`, it neither grants nor releases, and its kind
belongs to the channel. -/
structure InLeaseOf (c : Chan) (e : Event) : Prop where
  tag : e.chan = some c
  noBound : ∀ x, e.kind ≠ .grant x ∧ e.kind ≠ .release x
  allowed : e.kind.allowedFor c = true

/-- An event after which a log of leases goes on, while `c` owns the lease, is inside the lease of `c`, unless it
releases the lease or is a reset. -/
theorem ownerAfter_inLease {c : Chan} {o : Option Chan} {e : Event} (hrel : e.kind ≠ .release c)
    (hreset : e.kind ≠ .reset) (h : ownerAfter (some c) e = some o) : o = some c ∧ InLeaseOf c e := by
  obtain ⟨tag, kind⟩ := e
  cases kind
  case reset => exact absurd rfl hreset
  case grant x => simp [ownerAfter] at h
  case release x =>
    have hx : c ≠ x := fun hcx => hrel (by rw [hcx])
    simp [ownerAfter, hx] at h
  all_goals
    simp only [ownerAfter, Option.ite_none_right_eq_some] at h
    obtain ⟨⟨htag, hallowed⟩, ho⟩ := h
    exact ⟨(Option.some.inj ho).symm, htag, fun x => ⟨nofun, nofun⟩, hallowed⟩

/-- In a log of leases that leaves an owner, every event after a grant to `c`, up to a release of `c` or a reset, is
inside the lease of `c`. -/
theorem leasedLog_stretch {mid older : List Event} {e : Event} {c : Chan} {o : Option Chan} (hk : e.kind = .grant c)
    (hmid : ∀ x ∈ mid, x.kind ≠ .release c ∧ x.kind ≠ .reset) (h : leasedLog (mid ++ e :: older) = some o) :
    o = some c ∧ ∀ x ∈ mid, InLeaseOf c x := by
  induction mid generalizing o with
  | nil =>
    obtain ⟨o', -, hafter⟩ := leasedLog_cons.mp h
    exact ⟨ownerAfter_grant hk hafter, nofun⟩
  | cons x xs ih =>
    obtain ⟨⟨hrel, hreset⟩, hxs⟩ := List.forall_mem_cons.mp hmid
    obtain ⟨o', hlog, hafter⟩ := leasedLog_cons.mp h
    obtain ⟨rfl, hin⟩ := ih hxs hlog
    obtain ⟨ho, hx⟩ := ownerAfter_inLease hrel hreset hafter
    exact ⟨ho, List.forall_mem_cons.mpr ⟨hx, hin⟩⟩

/-- Settles O21, from what a step does to the two logs and from the leases that the invariant reads in LOG. -/
theorem leaseExclusion : Obligations.LeaseExclusion := by
  refine ⟨fun s => weave_events s.log s.leaseWaits, fun s t hinv h => step_eventLog hinv.waitsPlaced h,
    fun s t h => ?_, fun s newer mid older c hinv hlog hmid e he => ?_⟩
  · obtain ⟨newer, hnewer⟩ := step_log_suffix h
    exact ⟨newer, hnewer.symm⟩
  · have hleased : leasedLog (newer ++ (mid ++ ⟨some c, .grant c⟩ :: older)) = some s.owner := by
      rw [← List.append_assoc, ← hlog]; exact hinv.logLeased
    obtain ⟨o, ho⟩ := leasedLog_append hleased
    obtain ⟨-, hin⟩ := leasedLog_stretch rfl hmid ho
    obtain ⟨htag, hbound, hallowed⟩ := hin e he
    refine ⟨htag, hbound, fun tx rx hk => ?_, fun k hk => ?_, fun oe l hk => ?_⟩ <;>
      simpa [hk, EventKind.allowedFor] using hallowed

end Sys2Proof.Machine
end

section
/-! SUPPORT. One step of the machine and its parts: the block reset, the move that lets a channel step, PENDING, the
lease a command starts from, and the end of a command. -/

namespace Sys2Proof.Machine

/-! ## Reset and schedule -/

/-- Settles O9: every register of a reset state is a field of `State.init`. -/
theorem blockReset : Obligations.BlockReset := by
  intro s
  refine ⟨s.blockReset, rfl, rfl, rfl, rfl, rfl, rfl, rfl, rfl, rfl, rfl, rfl, rfl, rfl, rfl, rfl, fun d => ?_,
    fun c => ?_, rfl, rfl, rfl, rfl⟩
  · cases d <;> exact ⟨rfl, rfl, rfl, rfl, rfl, rfl, rfl, rfl, rfl, rfl⟩
  · cases c <;> exact ⟨rfl, rfl, rfl, rfl, rfl⟩

/-- The move that stands first in the list is taken off it. -/
theorem nextMove_listed {s : State} {m : Move} {ms : List Move} (h : s.sched = m :: ms) :
    nextMove s = (m, { s with sched := ms }) := by
  simp [nextMove, h]

/-- Every channel stands once in the round-robin order (R127). -/
theorem roundRobin_filter_one (last c : Chan) : (roundRobin last).filter (· ∈ [c]) = [c] := by
  cases last <;> cases c <;> rfl

/-- A cycle of one channel is that channel's step. -/
theorem runCycle_one (hold : Nat) (c : Chan) (s : State) : runCycle hold [c] s = pacedStep hold c s := by
  simp only [runCycle, roundRobin_filter_one, List.foldl_cons, List.foldl_nil, andThen_next_left]

/-- A move that holds back no event adds nothing to the channel's step. -/
theorem andThen_holdBack_zero (o : Result) (s : State) (c : Chan) :
    andThen o (fun t => .next (s.holdBack c 0 t)) = o := by
  cases o <;> simp [andThen]

/-- An idle channel takes the frame in its slot and begins it (R121). -/
theorem channelStep_idle {s : State} {c : Chan} {f : Frame} (hphase : (s.front c).phase = .idle)
    (hbusy : (s.front c).busy = false) (hrx : (s.front c).rx = some f) :
    channelStep c s = runFrame c f (s.takeFrame c) := by
  simp [channelStep, hphase, hbusy, hrx]

/-- A channel that was granted the lease after a wait goes on with its frame (R125). -/
theorem channelStep_granted {s : State} {c : Chan} {f : Frame} (hphase : (s.front c).phase = .granted)
    (hrx : (s.front c).rx = some f) : channelStep c s = runFrame c f s := by
  simp [channelStep, hphase, hrx]

/-- A channel whose command has run ends it (R121). -/
theorem channelStep_ran {s : State} {c : Chan} {resp : Option Frame} {release : Bool}
    (hphase : (s.front c).phase = .ran resp release) : channelStep c s = s.endCommand c := by
  simp [channelStep, hphase]

/-- A frame that decodes runs as its instruction (R110). -/
theorem runFrame_ok {s : State} {c : Chan} {f : Frame} {i : Instr} (h : decode s.cfg (.frame c f) = .ok i) :
    runFrame c f s = exec i s := by
  simp [runFrame, h]

/-- The step of a channel with a frame that decodes is `exec`, from the state with the frame taken or, after a grant,
from the state as it is. -/
theorem channelStep_exec {s v : State} {c : Chan} {f : Frame} {i : Instr} (hrx : (s.front c).rx = some f)
    (hdecode : decode s.cfg (.frame c f) = .ok i)
    (hv : ((s.front c).phase = .idle ∧ (s.front c).busy = false ∧ v = s.takeFrame c) ∨
      ((s.front c).phase = .granted ∧ v = s)) :
    channelStep c s = exec i v := by
  obtain ⟨hidle, hfree, rfl⟩ | ⟨hgranted, rfl⟩ := hv
  · rw [channelStep_idle hidle hfree hrx]
    exact runFrame_ok (by rw [State.takeFrame, State.setFront_cfg, hdecode])
  · rw [channelStep_granted hgranted hrx, runFrame_ok hdecode]

/-- The move that lets one channel step is the paced step of that channel. -/
theorem step_run_one {s : State} {c : Chan} {hold : Nat} {ms : List Move} (hsched : s.sched = .run [c] hold :: ms)
    (hboot : s.bootReq = false) : step s = pacedStep hold c { s with sched := ms } := by
  rw [step, nextMove_listed hsched]
  simp [applyMove, hboot, runCycle_one]

@[simp] theorem State.front_sched (s : State) (ms : List Move) (c : Chan) :
    State.front { s with sched := ms } c = s.front c := by
  cases c <;> rfl

/-- Settles O13: the cycle of one channel is its step, and the step of a channel with a frame is `exec`. -/
theorem stepRunsDecoded : Obligations.StepRunsDecoded := by
  constructor
  · intro s c f i hold ms hsched hboot hrx hdecode
    have hrun (v : State) (hv : _) : channelStep c { s with sched := ms } = exec i v :=
      channelStep_exec (s := { s with sched := ms }) (by rw [State.front_sched, hrx]) hdecode hv
    simp only [State.takeFrame, State.front_sched] at hrun
    intro u v hv
    have hstep : step s = andThen (exec i v) fun t => .next (u.holdBack c hold t) := by
      rw [step_run_one hsched hboot, pacedStep, hrun v hv]
    exact ⟨hstep, fun hhold => by rw [hstep, hhold, andThen_holdBack_zero]⟩
  · intro s d bits w i ms hsched hboot hport hdecode
    rw [step, nextMove_listed hsched]
    simp [applyMove, engineStep, hboot, hport, hdecode]

/-! ## PENDING -/

/-- Distinct channels other than a given one are at most two (R13). -/
theorem Chan.length_le_two {cs : List Chan} {o : Chan} (hnodup : cs.Nodup) (ho : o ∉ cs) : cs.length ≤ 2 := by
  have hsub : (o :: cs).length ≤ ([.ch0, .ch1, .ch2] : List Chan).length :=
    ((List.nodup_cons.mpr ⟨ho, hnodup⟩).subperm fun c _ => by cases c <;> simp).length_le
  simpa [Nat.lt_succ_iff] using hsub

/-- Settles O20: with an owner the waiting channels are two others, and without one nobody waits. -/
theorem pendingShape : Obligations.PendingShape := by
  refine ⟨fun s hinv => ⟨hinv.pendingNodup, ?_, hinv.ownerNotPending⟩, rfl⟩
  cases howner : s.owner with
  | none => simp [hinv.freeNoneWaiting howner]
  | some o => exact Chan.length_le_two hinv.pendingNodup (hinv.ownerNotPending o howner)

/-! ## The state a command under the lease starts from -/

@[simp] theorem State.leased_cfg (s : State) (c : Chan) : (s.leased c).cfg = s.cfg := by
  unfold State.leased; split <;> simp

@[simp] theorem State.leased_dap (s : State) (c : Chan) (d : DapCh) : (s.leased c).dap d = s.dap d := by
  unfold State.leased; split
  · rfl
  · rw [State.setPhase_dap]; cases d <;> rfl

theorem State.CanLease.leased_owner {s : State} {c : Chan} (h : s.CanLease c) : (s.leased c).owner = some c := by
  unfold State.leased
  obtain ⟨hphase, howner⟩ | ⟨hphase, -⟩ := h
  · rw [if_pos hphase, howner]
  · rw [if_neg hphase, State.setPhase_owner]

/-- Asking for a free lease leads to the state after the grant of R126. -/
theorem State.acquire_leased {s : State} {c : Chan} (hphase : (s.front c).phase ≠ .granted) (hfree : s.Free) :
    s.acquire c = s.leased c := by
  obtain ⟨howner, hpending⟩ := hfree
  rw [State.acquire_free howner hpending, State.leased, if_neg hphase]
  cases c <;> simp [State.grant, State.setPhase, State.setFront, State.front, State.logEv]

/-- A command of a channel that can lease runs its bus action, and does not wait (R125). -/
theorem State.CanLease.underLease {s : State} {c : Chan} (h : s.CanLease c) (k : State → State) :
    underLease c k s = .next (k (s.leased c)) := by
  have howner := h.leased_owner
  obtain ⟨hphase, hown⟩ | ⟨hphase, hfree⟩ := h
  · exact underLease_next.mpr (.inl ⟨hphase, hown, by rw [State.leased, if_pos hphase]⟩)
  · refine underLease_next.mpr (.inr ⟨fun hg => hphase hg.1, by simp [hfree.1], by simp [hfree.2], ?_⟩)
    rw [State.acquire_leased hphase hfree, if_pos howner]

/-! ## BOOTLOAD -/

/-- A front end after its command has ended with the response `resp`: handed over to an attached transport, the slot
free (R121, R288). -/
def Front.ended (f : Front) (resp : Option Frame) : Front :=
  { f with
    rx := none
    busy := false
    phase := .idle
    sent := if f.link = .attached then resp.toList ++ f.sent else f.sent }

/-- Handing over an answer and freeing the slot writes the front end alone (R121). -/
theorem State.deliver_freeSlot (s : State) (c : Chan) (resp : Option Frame) :
    (s.deliver c resp).freeSlot c = s.setFront c ((s.front c).ended resp) := by
  cases resp with
  | none => simp [State.deliver, State.freeSlot, Front.ended]
  | some f => cases hlink : (s.front c).link <;> simp [State.deliver, State.freeSlot, Front.ended, hlink]

/-- The trigger of R167 as one update, for the channel that owns the lease. -/
theorem bootTrigger_eq {s : State} (h : s.owner = some .ch0) :
    bootTrigger s = { s with
      front0 := { s.front0 with
        rx := none
        busy := false
        phase := .idle
        sent := if s.front0.link = .attached then [0x00] :: s.front0.sent else s.front0.sent }
      bootReq := true
      log := gains (some .ch0) [.boot] s.log } := by
  rw [bootTrigger, State.deliver_freeSlot]
  simp [State.setFront, State.front, State.logEv, Front.ended, h, gains, bridgeReply,
    bridgeOk]
  rfl

/-- Settles O34: the trigger under either lease, and the out-of-service branch of every move. -/
theorem bootloadLeavesService : Obligations.BootloadLeavesService := by
  refine ⟨fun s t hlease => ?_, fun s m hboot hm => ?_⟩
  · obtain ⟨htxn, howner, rfl⟩ | ⟨htxn, hcan, rfl⟩ := hlease
    · simp [exec, execBootload, htxn, onBus, howner, bootTrigger_eq howner]
    · simp [exec, execBootload, htxn, hcan.underLease, bootTrigger_eq hcan.leased_owner]
  · cases m with
    | reset => exact absurd rfl hm
    | _ => simp [applyMove, hboot]

/-! ## The end of a command -/

/-- The wrapper's end for every channel: the registers of its DAP channel, if it has one (R220). -/
theorem State.closeCommand_dap (s : State) (c : Chan) (d : DapCh) :
    (s.closeCommand c).dap d = if d.chan = c then
      { s.dap d with
        xferFsm := .idle
        dapState := if (s.dap d).dapState = .transferInProgress then .idle else (s.dap d).dapState
        batch := Batch.init }
      else s.dap d := by
  cases c <;> cases d <;> rfl

/-- The wrapper's end writes the registers of DAP channels alone. -/
theorem State.closeCommand_eq (s : State) (c : Chan) :
    s.closeCommand c = { s with dap1 := (s.closeCommand c).dap1, dap2 := (s.closeCommand c).dap2 } := by
  cases c <;> rfl

/-- The grant of R126 as one update. -/
theorem State.grant_eq (s : State) (x : Chan) :
    s.grant x = State.setPhase { s with
      pending := s.pending.filter (· ≠ x), owner := some x, lastGrant := x
      log := ⟨some x, .grant x⟩ :: s.log } x .granted := by
  cases x <;> rfl

/-- The owner's release while nobody waits frees the lease (R129). -/
theorem State.release_nobody {s : State} {c : Chan} (howner : s.owner = some c) (hpending : s.pending = []) :
    s.release c = .next { s with owner := none, log := ⟨some c, .release c⟩ :: s.log } := by
  rw [State.release_next.mpr ⟨howner, rfl⟩, State.arbitrate]
  simp [hpending, State.logEv, howner]

/-- The owner's release passes the lease on to the first waiting channel (R126, R129). -/
theorem State.release_waiting {s : State} {c x : Chan} {xs : List Chan} (howner : s.owner = some c)
    (hpending : s.pending = x :: xs) (hx : x ∉ xs) :
    s.release c = .next (State.setPhase { s with
      pending := xs, owner := some x, lastGrant := x
      log := ⟨some x, .grant x⟩ :: ⟨some c, .release c⟩ :: s.log } x .granted) := by
  have hfilter : (x :: xs).filter (· ≠ x) = xs := by
    simpa using fun y hy (hyx : y = x) => hx (hyx ▸ hy)
  rw [State.release_next.mpr ⟨howner, rfl⟩, State.arbitrate]
  simp only [hpending, State.logEv_pending, State.grant_eq, hfilter, State.logEv_log, howner]
  rfl

/-- The owner's release as one update: OWNER is the first waiting channel, or none (R126, R129). -/
theorem State.release_passes {s : State} {c : Chan} (howner : s.owner = some c) (hnodup : s.pending.Nodup) :
    ∃ t, s.release c = .next t ∧
      t = { s with
        front0 := t.front0, front1 := t.front1, front2 := t.front2
        owner := s.pending.head?
        pending := s.pending.tail
        lastGrant := s.pending.head?.getD s.lastGrant
        log := (s.pending.head?.toList.map fun x => ⟨some x, .grant x⟩) ++ ⟨some c, .release c⟩ :: s.log } ∧
      ∀ x, t.front x = if s.pending.head? = some x then { s.front x with phase := .granted } else s.front x := by
  cases hpending : s.pending with
  | nil =>
    refine ⟨_, State.release_nobody howner hpending, ?_, fun x => ?_⟩
    · simp [hpending]
    · cases x <;> rfl
  | cons x xs =>
    rw [hpending, List.nodup_cons] at hnodup
    refine ⟨_, State.release_waiting howner hpending hnodup.1, ?_, fun y => ?_⟩
    · cases x <;> rfl
    · cases x <;> cases y <;> rfl

/-- The end of a command that keeps the lease as it was: its last bus events, and its front end (R121, R222). -/
theorem State.endCommand_keeping {s : State} {c : Chan} {resp : Option Frame}
    (h : (s.front c).phase = .ran resp false) :
    s.endCommand c = .next ((s.finishBus c).setFront c ((s.front c).ended resp)) := by
  rw [State.endCommand_ran h]
  simp [State.deliver_freeSlot, (s.finishBus_bus c).front]

/-- The end of a command that holds a lease of its own: its last bus events, the wrapper's end and the release, which
may pass the lease on, and its front end (R121, R129, R220, R222). -/
theorem State.endCommand_releasing {s : State} {c : Chan} {resp : Option Frame}
    (h : (s.front c).phase = .ran resp true) :
    s.endCommand c = andThen (((s.finishBus c).closeCommand c).release c)
      fun t => .next (t.setFront c ((t.front c).ended resp)) := by
  rw [State.endCommand_ran h]
  simp [State.deliver_freeSlot]

/-- What the end of a command does to LOG and the events ahead before its release (R222). -/
theorem State.finishBus_logs (s : State) (c : Chan) :
    (s.owner = some c → (s.finishBus c).log = s.ahead.reverse ++ s.log ∧ (s.finishBus c).ahead = []) ∧
      (s.owner ≠ some c → s.finishBus c = s) :=
  ⟨fun h => by rw [State.finishBus_owner h]; exact s.settled_spec.2, State.finishBus_other⟩

/-- Settles O16: a command that keeps the lease changes its front end alone, one that releases it also what
`State.release_passes` names and the wrapper's registers. -/
theorem commandEnds : Obligations.CommandEnds := by
  intro s c resp release hphase hlease u
  have hbus : SameButBus s u := s.finishBus_bus c
  obtain ⟨hown, hother⟩ := s.finishBus_logs c
  have hstep := channelStep_ran hphase
  cases release with
  | false =>
    refine ⟨u.setFront c ((s.front c).ended resp), by rw [hstep, State.endCommand_keeping hphase], ?_⟩
    have hahead : s.owner ≠ some c → u.ahead = s.ahead := fun h => by rw [show u = s from hother h]
    simp only [State.setFront_front_self, State.setFront_owner]
    refine ⟨rfl, fun x hx => ?_, hbus.owner, ?_, ?_, by simp, ?_, ?_, fun d => ?_, ?_⟩
    · simp [State.setFront_front_ne _ _ hx, hbus.front]
    · simp [hbus.pending]
    · simp; rw [hbus]
    · simpa using hown
    · simpa using fun h => ⟨hother h, hahead h⟩
    · simp [hbus.dap]
    · simp
      rw [hbus]; simp
  | true =>
    obtain ⟨howner, hc, hnodup⟩ := hlease rfl
    have hw : u.closeCommand c = _ := u.closeCommand_eq c
    have hwpending : (u.closeCommand c).pending = s.pending := by rw [hw]; exact hbus.pending
    have hwfront (x : Chan) : (u.closeCommand c).front x = s.front x := by
      rw [hw, ← hbus.front]; cases x <;> rfl
    obtain ⟨t, ht, hteq, htfront⟩ := State.release_passes (s := u.closeCommand c) (c := c)
      (by rw [hw, ← howner]; exact hbus.owner) (by rw [hwpending]; exact hnodup)
    have hhead : s.pending.head? ≠ some c := fun h => hc (List.mem_of_mem_head? h)
    simp only [hwpending, hwfront] at hteq htfront
    have htdap (d : DapCh) : t.dap d = (u.closeCommand c).dap d := by rw [hteq]; cases d <;> rfl
    have htc : t.front c = s.front c := by simp [htfront, hhead]
    refine ⟨t.setFront c ((s.front c).ended resp), ?_, ?_⟩
    · rw [hstep, State.endCommand_releasing hphase, ht, andThen_next_left, htc]
    · simp only [State.setFront_front_self, State.setFront_owner, State.setFront_pending, State.setFront_lastGrant,
        State.setFront_log, State.setFront_ahead, State.setFront_dap, if_true]
      refine ⟨rfl, fun x hx => ?_, ?_, ?_, ?_, ?_, fun h => ⟨(hown h).1, ?_⟩, fun h => absurd howner h, fun d => ?_, ?_⟩
      · simpa [State.setFront_front_ne _ _ hx] using htfront x
      · rw [hteq]
      · rw [hteq]
      · rw [hteq, hw]; simp; rw [hbus]
      · rw [hteq, hw]; rfl
      · rw [hteq, hw]; exact (hown h).2
      · simp only [htdap, State.closeCommand_dap, hbus.dap, and_true]
      · simp
        rw [hteq, hw, hbus]
        simp

end Sys2Proof.Machine
end

section
/-! SUPPORT. What a command may do on the bus, said once: the levels of the outputs follow from the events of LOG, and
every bus action of a channel writes the shared registers, its own registers and events of its own lease alone. -/

namespace Sys2Proof.Machine

/-! ## Outputs and events -/

/-- The level of an output after one event, `v` before it (R156). -/
def OutPin.levelAfter (p : OutPin) (v : Bool) : EventKind → Bool
  | .pin q l => if q = outPin p then l else v
  | _ => v

/-- The level of an output after the events `ks`, oldest first, `v` before them. -/
def OutPin.levelOf (p : OutPin) (ks : List EventKind) (v : Bool) : Bool := ks.foldl p.levelAfter v

@[simp] theorem OutPin.levelOf_nil (p : OutPin) (v : Bool) : p.levelOf [] v = v := rfl

@[simp] theorem OutPin.levelOf_cons (p : OutPin) (k : EventKind) (ks : List EventKind) (v : Bool) :
    p.levelOf (k :: ks) v = p.levelOf ks (p.levelAfter v k) := rfl

theorem OutPin.levelOf_append (p : OutPin) (ks ls : List EventKind) (v : Bool) :
    p.levelOf (ks ++ ls) v = p.levelOf ls (p.levelOf ks v) := List.foldl_append

/-- Events that write no output leave its level. -/
theorem OutPin.levelOf_of_silent (p : OutPin) {ks : List EventKind} (h : ∀ k ∈ ks, ∀ v, p.levelAfter v k = v)
    (v : Bool) : p.levelOf ks v = v := by
  induction ks with
  | nil => rfl
  | cons k ks ih =>
    obtain ⟨hk, hks⟩ := List.forall_mem_cons.mp h
    rw [OutPin.levelOf_cons, hk, ih hks]

theorem State.applyPin_outReg (s : State) (k : EventKind) (p : OutPin) :
    (s.applyPin k).outReg p = p.levelAfter (s.outReg p) k := by
  cases k with
  | pin q l => cases q <;> cases p <;> rfl
  | _ => rfl

/-- The outputs after `n` steps of the Pin/Bus Controller follow from the events executed. -/
theorem playEvents_outReg (n : Nat) (s : State) (p : OutPin) :
    (playEvents n s).outReg p = p.levelOf ((s.ahead.take n).map Event.kind) (s.outReg p) := by
  induction n generalizing s with
  | zero => rfl
  | succ n ih =>
    rw [playEvents]
    split
    · rename_i h; simp [h]
    · rename_i e es h
      rw [ih, State.applyPin_ahead, State.applyPin_outReg, h]
      cases p <;> rfl

/-- States that agree on the outputs, on LOG, on the events ahead and on what no bus event writes are equal. -/
theorem SameButBus.ext {s t u : State} (ht : SameButBus s t) (hu : SameButBus s u) (hout : ∀ p, t.outReg p = u.outReg p)
    (hlog : t.log = u.log) (hahead : t.ahead = u.ahead) : t = u := by
  have hcs : t.csN = u.csN := hout .csN
  have hreset : t.resetN = u.resetN := hout .resetN
  have hpower : t.powerEn = u.powerEn := hout .powerEn
  rw [ht, hu, hcs, hreset, hpower, hlog, hahead]

theorem SameButBus.trans {s t u : State} (h : SameButBus s t) (k : SameButBus t u) : SameButBus s u := by
  unfold SameButBus at *; rw [k]; rw [h]

theorem SameButBus.symm {s t : State} (h : SameButBus s t) : SameButBus t s := by
  unfold SameButBus at *; rw [h]

/-- Executing some of the events ahead leads to the same settled state. -/
theorem playEvents_settled (n : Nat) (s : State) : (playEvents n s).settled = s.settled := by
  obtain ⟨hbus, hlog, hahead⟩ := playEvents_spec n s
  obtain ⟨hsb, hsl, hsa⟩ := s.settled_spec
  obtain ⟨hpb, hpl, hpa⟩ := (playEvents n s).settled_spec
  refine (hbus.trans hpb).ext hsb (fun p => ?_) ?_ (by rw [hpa, hsa])
  · rw [State.settled, State.settled, playEvents_outReg, playEvents_outReg, playEvents_outReg, List.take_length,
      List.take_length, hahead, ← OutPin.levelOf_append, ← List.map_append, List.take_append_drop]
  · rw [hpl, hsl, hlog, hahead, ← List.append_assoc, ← List.reverse_append, List.take_append_drop]

/-- The output levels of the settled state. -/
theorem State.settled_outReg (s : State) (p : OutPin) :
    s.settled.outReg p = p.levelOf (s.ahead.map Event.kind) (s.outReg p) := by
  rw [State.settled, playEvents_outReg, List.take_length]

/-- From `s` to `t` LOG gains the events `es`, oldest first, the outputs follow them, and none is held back. -/
def Records (s t : State) (es : List Event) : Prop :=
  t.log = es.reverse ++ s.log ∧ t.ahead = s.ahead ∧ ∀ p, t.outReg p = p.levelOf (es.map Event.kind) (s.outReg p)

theorem Records.trans {s t u : State} {es fs : List Event} (h : Records s t es) (k : Records t u fs) :
    Records s u (es ++ fs) := by
  obtain ⟨hlog, hahead, hout⟩ := h
  obtain ⟨klog, kahead, kout⟩ := k
  refine ⟨by rw [klog, hlog]; simp, by rw [kahead, hahead], fun p => ?_⟩
  rw [kout, hout, List.map_append, OutPin.levelOf_append]

/-- A change of registers that are neither outputs nor LOG. -/
theorem Records.silent {s t : State} (hlog : t.log = s.log) (hahead : t.ahead = s.ahead)
    (hout : ∀ p, t.outReg p = s.outReg p) : Records s t [] := ⟨hlog, hahead, hout⟩

/-- What a move holds back of a command that ran from `s` to `t` and recorded the events `es`: in the state `u` the
events `now` have happened, and executing the events `later` leads to `t` (log entry 7). -/
structure HeldBack (c : Chan) (hold : Nat) (s t u : State) (es now later : List Event) : Prop where
  split : es = now ++ later
  log : u.log = now.reverse ++ s.log
  ahead : u.ahead = later
  outputs : ∀ p, u.outReg p = p.levelOf (now.map Event.kind) (s.outReg p)
  bound : later.length ≤ hold
  holdable : later.length ≤ es.countP (·.kind.holdable)
  settled : u.settled = t
  running : later ≠ [] → (t.front c).phase.hasRun = true ∧ t.owner = some c

theorem State.holdBack_held {s t : State} {es : List Event} (c : Chan) (hold : Nat) (h : Records s t es)
    (hahead : s.ahead = []) : ∃ now later, HeldBack c hold s t (s.holdBack c hold t) es now later := by
  obtain ⟨hlog, hta, hout⟩ := h
  rw [hahead] at hta
  simp only [State.holdBack, newEvents_append hlog, List.reverse_reverse]
  split
  · rename_i hheld
    obtain ⟨hrun, howner, -, -⟩ := hheld
    let s0 : State := { t with log := s.log, ahead := es, csN := s.csN, resetN := s.resetN, powerEn := s.powerEn }
    let n := es.length - min hold (es.countP (·.kind.holdable))
    obtain ⟨-, hnow, hlater⟩ := playEvents_spec n s0
    have hcount : es.countP (·.kind.holdable) ≤ es.length := List.countP_le_length
    have hlen : (es.drop n).length = min hold (es.countP (·.kind.holdable)) := by
      rw [List.length_drop]; omega
    have hstart (p : OutPin) : s0.outReg p = s.outReg p := by cases p <;> rfl
    refine ⟨es.take n, es.drop n, (List.take_append_drop ..).symm, hnow, hlater, fun p => ?_, by omega, by omega, ?_,
      fun _ => ⟨hrun, howner⟩⟩
    · rw [← hstart, playEvents_outReg]
    obtain ⟨hsb, hsl, hsa⟩ := s0.settled_spec
    have hts : SameButBus s0 t := rfl
    refine (playEvents_settled n s0).trans (hsb.ext hts (fun p => ?_) (by rw [hsl, hlog]) (by rw [hsa, hta]))
    rw [State.settled_outReg, hout, hstart]
  · exact ⟨es, [], by simp, hlog, hta, hout, by simp, by simp, State.settled_of_nil hta, by simp⟩

/-- A move holds back events of a command that has run, none of which lies ahead, and of no other. -/
theorem State.holdBack_other {s t : State} {c : Chan} {hold : Nat}
    (h : (t.front c).phase.hasRun = false ∨ t.owner ≠ some c ∨ t.ahead ≠ []) : s.holdBack c hold t = t := by
  refine if_neg ?_
  rintro ⟨hrun, howner, hahead, -⟩
  obtain h | h | h := h
  · simp [h] at hrun
  · exact h howner
  · exact h hahead

/-! ## Events of a lease -/

/-- The events that a bus action of `c` may record: none that bounds a lease (R126, R129), SPI bytes and the outputs
CS_N and POWER_EN on the bridge alone, SWD cycles on a DAP channel alone (R134, R156). -/
def EventKind.within (c : Chan) : EventKind → Bool
  | .grant _ | .release _ | .reset => false
  | .spi _ _ | .pin .csN _ | .pin .powerEn _ => c == .ch0
  | .swd _ | .swdio _ _ => c != .ch0
  | _ => true

/-- An event of a bus action leaves the lease as it is (R47, R134). -/
theorem ownerAfter_within {c : Chan} {k : EventKind} (h : k.within c = true) :
    ownerAfter (some c) ⟨some c, k⟩ = some (some c) := by
  cases k <;> simp_all [EventKind.within, ownerAfter, EventKind.allowedFor]

theorem gains_append (o : Option Chan) (ks ls : List EventKind) (log : List Event) :
    gains o (ks ++ ls) log = gains o ls (gains o ks log) := by
  simp [gains]

/-- A log of leases that leaves the owner `c` goes on with the events of its bus actions. -/
theorem leasedLog_gains {c : Chan} {ks : List EventKind} {log : List Event} (h : ∀ k ∈ ks, k.within c = true)
    (hlog : leasedLog log = some (some c)) : leasedLog (gains (some c) ks log) = some (some c) := by
  induction ks generalizing log with
  | nil => exact hlog
  | cons k ks ih =>
    obtain ⟨hk, hks⟩ := List.forall_mem_cons.mp h
    have hone : leasedLog (⟨some c, k⟩ :: log) = some (some c) :=
      leasedLog_cons.mpr ⟨some c, hlog, ownerAfter_within hk⟩
    have hcons : gains (some c) (k :: ks) log = gains (some c) ks (⟨some c, k⟩ :: log) := by simp [gains]
    rw [hcons, ih hks hone]

/-! ## Bus actions -/

/-- SWDIO is driven in SWD mode (R210). -/
def State.SwdDriven (s : State) : Prop := s.pinMode = .swd → s.swdioOe = true

/-- The registers that a bus action of `c` between `s` and `t` may write, and the events it records: what holds of every
command of `c` under the lease, at whatever state it starts. -/
structure BusAction (c : Chan) (s t : State) : Prop where
  frame : t = { s with
    pinMode := t.pinMode, csN := t.csN, resetN := t.resetN, powerEn := t.powerEn, sck := t.sck, sdo := t.sdo
    swdioOe := t.swdioOe, activeDiv := t.activeDiv, brTxn := t.brTxn, dap1 := t.dap1, dap2 := t.dap2, log := t.log
    draws := t.draws }
  records : ∃ ks : List EventKind, (∀ k ∈ ks, k.within c = true) ∧ Records s t (ks.map fun k => ⟨s.owner, k⟩)
  otherDap : ∀ d : DapCh, d.chan ≠ c → t.dap d = s.dap d
  otherTxn : c ≠ .ch0 → t.brTxn = s.brTxn
  driven : s.SwdDriven → t.SwdDriven
  turnaround : ∀ d, 1 ≤ (s.dap d).turnaround ∧ (s.dap d).turnaround ≤ 4 →
    1 ≤ (t.dap d).turnaround ∧ (t.dap d).turnaround ≤ 4

namespace BusAction

variable {c : Chan} {s t u : State}

theorem owner (h : BusAction c s t) : t.owner = s.owner := by rw [h.frame]

theorem front (h : BusAction c s t) (x : Chan) : t.front x = s.front x := by rw [h.frame]; cases x <;> rfl

theorem refl (c : Chan) (s : State) : BusAction c s s :=
  ⟨rfl, ⟨[], by simp, .silent rfl rfl fun _ => rfl⟩, fun _ _ => rfl, fun _ => rfl, id, fun _ => id⟩

theorem trans (h : BusAction c s t) (k : BusAction c t u) : BusAction c s u where
  frame := by
    have hf := h.frame
    have kf := k.frame
    rw [hf] at kf
    exact kf
  records := by
    obtain ⟨ks, hks, hrec⟩ := h.records
    obtain ⟨ls, hls, krec⟩ := k.records
    rw [h.owner] at krec
    refine ⟨ks ++ ls, fun k hk => (List.mem_append.mp hk).elim (hks k) (hls k), ?_⟩
    rw [List.map_append]
    exact hrec.trans krec
  otherDap d hd := (k.otherDap d hd).trans (h.otherDap d hd)
  otherTxn hc := (k.otherTxn hc).trans (h.otherTxn hc)
  driven := k.driven ∘ h.driven
  turnaround d := k.turnaround d ∘ h.turnaround d

theorem ite {p : Prop} [Decidable p] (h : BusAction c s t) (k : BusAction c s u) :
    BusAction c s (if p then t else u) := by
  split
  · exact h
  · exact k

/-- A further operation that runs only on a condition. -/
theorem thenIf {p : Prop} [Decidable p] (h : BusAction c s t) (k : BusAction c t u) :
    BusAction c s (if p then u else t) :=
  .ite (h.trans k) h

/-- Taking draws. -/
theorem draws (c : Chan) (s : State) (dr : Draws) : BusAction c s { s with draws := dr } :=
  ⟨rfl, ⟨[], by simp, .silent rfl rfl fun p => by cases p <;> rfl⟩, fun d _ => by cases d <;> rfl, fun _ => rfl, id,
    fun d h => by cases d <;> exact h⟩

/-- Writing the registers of the channel's own interpreter, with a turnaround in its range (R43). -/
theorem setDap (d : DapCh) (s : State) (r : DapRegs)
    (hr : 1 ≤ (s.dap d).turnaround ∧ (s.dap d).turnaround ≤ 4 → 1 ≤ r.turnaround ∧ r.turnaround ≤ 4) :
    BusAction d.chan s (s.setDap d r) where
  frame := by cases d <;> rfl
  records := ⟨[], by simp, .silent (by simp) (by simp) fun p => by cases d <;> cases p <;> rfl⟩
  otherDap e he := State.setDap_dap_ne s r fun h => he (by rw [h])
  otherTxn _ := by simp
  driven h := by cases d <;> exact h
  turnaround e h := by
    by_cases hed : e = d
    · subst hed; simpa using hr h
    · rwa [State.setDap_dap_ne s r hed]

/-- Writing the shared pin function, clock and data registers with one event of the lease that writes no output. -/
theorem pins {k : EventKind} (hk : k.within c = true) (hout : ∀ p v, OutPin.levelAfter p v k = v) (s : State)
    (m : PinMode) (sck sdo oe : Bool) (d : Divider) (hd : s.SwdDriven → m = .swd → oe = true) :
    BusAction c s ({ s with pinMode := m, sck := sck, sdo := sdo, swdioOe := oe, activeDiv := d }.logEv k) where
  frame := rfl
  records := ⟨[k], by simpa using hk, rfl, rfl, fun p => by
    simp only [List.map_cons, List.map_nil, OutPin.levelOf_cons, OutPin.levelOf_nil, hout]; cases p <;> rfl⟩
  otherDap d _ := by cases d <;> rfl
  otherTxn _ := rfl
  driven := hd
  turnaround d h := by cases d <;> exact h

/-- An event of the lease that writes no register. -/
theorem logEv {k : EventKind} (hk : k.within c = true) (hout : ∀ p v, OutPin.levelAfter p v k = v) (s : State) :
    BusAction c s (s.logEv k) :=
  pins hk hout s s.pinMode s.sck s.sdo s.swdioOe s.activeDiv id

/-- SetPin writes the register of its output and records it (R156). -/
theorem setPin {p : OutPin} {v : Bool} (hk : (EventKind.pin (outPin p) v).within c = true) (s : State) :
    BusAction c s (s.setPin p v) where
  frame := by cases p <;> rfl
  records := ⟨[.pin (outPin p) v], by simpa using hk, by cases p <;> rfl, by cases p <;> rfl, fun q => by
    cases p <;> cases q <;> rfl⟩
  otherDap d _ := by cases p <;> cases d <;> rfl
  otherTxn _ := by cases p <;> rfl
  driven h := by cases p <;> exact h
  turnaround d h := by cases p <;> cases d <;> exact h

theorem wait (c : Chan) (s : State) (k : WaitKind) (n : Nat) : BusAction c s (s.wait k n) :=
  logEv rfl (fun _ _ => rfl) s

theorem setActiveDiv (c : Chan) (s : State) (d : Divider) : BusAction c s (s.setActiveDiv d) :=
  pins rfl (fun _ _ => rfl) s s.pinMode s.sck s.sdo s.swdioOe d id

end BusAction

end Sys2Proof.Machine
end

section
/-! SUPPORT. The bus actions of the model: the wire of the SWD engine, the batches as sequences of packets and register
writes, and the bridge's bytes and chip select. -/

namespace Sys2Proof.Machine

/-! ## The SWD wire -/

/-- From `s` to `t` the wire of the shared pins moves, and LOG gains SWD events with the present owner's tag alone. -/
def SwdWire (s t : State) : Prop :=
  SameButWire s t ∧
    ∃ ks : List EventKind, t.log = gains s.owner ks s.log ∧ ∀ k ∈ ks, (∃ x, k = .swd x) ∨ ∃ oe l, k = .swdio oe l

namespace SwdWire

theorem refl (s : State) : SwdWire s s := ⟨.refl s, [], rfl, by simp⟩

theorem trans {s t u : State} (h : SwdWire s t) (k : SwdWire t u) : SwdWire s u := by
  obtain ⟨hw, ks, hlog, hks⟩ := h
  obtain ⟨kw, ls, klog, hls⟩ := k
  refine ⟨hw.trans kw, ks ++ ls, ?_, fun k hk => (List.mem_append.mp hk).elim (hks k) (hls k)⟩
  rw [klog, hlog, hw.owner, gains_append]

/-- One SWD event and any levels on the wire. -/
theorem event (s : State) (sck sdo oe : Bool) (dr : Draws) {k : EventKind}
    (hk : (∃ x, k = .swd x) ∨ ∃ oe l, k = .swdio oe l) :
    SwdWire s ({ s with sck := sck, sdo := sdo, swdioOe := oe, draws := dr }.logEv k) :=
  ⟨rfl, [k], rfl, by simpa using hk⟩

theorem setSwdio (s : State) (oe l : Bool) : SwdWire s (s.setSwdio oe l) :=
  event s s.sck l oe s.draws (.inr ⟨_, _, rfl⟩)

theorem driveBit (s : State) (b : Bool) : SwdWire s (s.driveBit b) := event s true b s.swdioOe s.draws (.inl ⟨_, rfl⟩)

theorem clockCycle (s : State) : SwdWire s s.clockCycle := event s true s.sdo s.swdioOe s.draws (.inl ⟨_, rfl⟩)

theorem sampleBit (s : State) : SwdWire s s.sampleBit.2 := by
  simp only [State.sampleBit]
  rw [State.drawBit_eq]
  exact event s true s.sdo s.swdioOe _ (.inl ⟨_, rfl⟩)

theorem driveBits (bs : List Bool) (s : State) : SwdWire s (driveBits bs s) := by
  induction bs generalizing s with
  | nil => exact .refl s
  | cons b bs ih => exact (driveBit s b).trans (ih _)

theorem clockCycles (n : Nat) (s : State) : SwdWire s (clockCycles n s) := by
  induction n generalizing s with
  | zero => exact .refl s
  | succ n ih => exact (clockCycle s).trans (ih _)

theorem sampleBits (n : Nat) (s : State) : SwdWire s (sampleBits n s).2 := by
  induction n generalizing s with
  | zero => exact .refl s
  | succ n ih => exact (sampleBit s).trans (ih _)

theorem ite {p : Prop} [Decidable p] {s t u : State} (h : SwdWire s t) (k : SwdWire s u) :
    SwdWire s (if p then t else u) := by
  split
  · exact h
  · exact k

theorem request (d : DapCh) (r : Nibble) (s : State) : SwdWire s (swdRequest d r s).2 :=
  (((driveBits _ s).trans (setSwdio _ _ _)).trans (clockCycles _ _)).trans (sampleBits _ _)

theorem idle (d : DapCh) (s : State) : SwdWire s (swdIdle d s) := (driveBits _ s).trans (setSwdio _ _ _)

theorem readPhase (d : DapCh) (s : State) : SwdWire s (swdReadPhase d s).2 :=
  (((sampleBits 32 s).trans (sampleBit _)).trans ((clockCycles _ _).trans (setSwdio _ _ _))).trans (idle d _)

theorem writePhase (d : DapCh) (w : Word) (s : State) : SwdWire s (swdWritePhase d w s).2 :=
  (((clockCycles _ s).trans (setSwdio _ _ _)).trans ((driveBits _ _).trans (driveBit _ _))).trans (idle d _)

theorem nackPhase (d : DapCh) (r : Nibble) (s : State) : SwdWire s (swdNackPhase d r s) := by
  have hread := SwdWire.ite (p := ((s.dap d).dataPhase && r.getLsbD 1) = true) (clockCycles 33 s) (.refl s)
  have hturn := hread.trans ((clockCycles (s.dap d).turnaround _).trans (setSwdio _ true true))
  exact (SwdWire.ite (hturn.trans (driveBits _ _)) hturn).trans (setSwdio _ _ _)

theorem backOff (d : DapCh) (s : State) : SwdWire s (swdBackOff d s) := (clockCycles _ s).trans (setSwdio _ _ _)

/-- One packet moves the wire and records SWD events alone (R197). -/
theorem xfer (d : DapCh) (r : Nibble) (w : Word) (s : State) : SwdWire s (swdXfer d r w s).2 := by
  have hreq := request d r s
  simp only [swdXfer]
  split
  · split
    · exact hreq.trans (readPhase d _)
    · exact hreq.trans (writePhase d w _)
  · split
    · exact hreq.trans (nackPhase d r _)
    · exact hreq.trans (backOff d _)

end SwdWire

/-- After a packet the host drives SWDIO (R210). -/
theorem swdXfer_driven (d : DapCh) (r : Nibble) (w : Word) (s : State) : (swdXfer d r w s).2.swdioOe = true := by
  simp only [swdXfer]
  split
  · split <;> rfl
  · split <;> rfl

theorem driveBits_swdioOe (bs : List Bool) (s : State) : (driveBits bs s).swdioOe = s.swdioOe := by
  induction bs generalizing s with
  | nil => rfl
  | cons b bs ih => exact ih _

/-- The kinds of events with one tag. -/
theorem map_kind_tagged (o : Option Chan) (ks : List EventKind) :
    (ks.map fun k => (⟨o, k⟩ : Event)).map Event.kind = ks := by
  simp [Function.comp_def]

/-- SWD wire activity that leaves SWDIO driven is a bus action of a DAP channel. -/
theorem SwdWire.busAction {s t : State} (h : SwdWire s t) (hoe : t.swdioOe = true) (d : DapCh) :
    BusAction d.chan s t := by
  obtain ⟨hwire, ks, hlog, hks⟩ := h
  have hne : d.chan ≠ .ch0 := by cases d <;> simp [DapCh.chan]
  have hout (p : OutPin) : t.outReg p = s.outReg p := by rw [hwire]; cases p <;> rfl
  refine ⟨by rw [hwire], ⟨ks, fun k hk => ?_, ?_, by rw [hwire], fun p => ?_⟩, fun e _ => hwire.dap e,
    fun _ => by rw [hwire], fun _ _ => hoe, fun e he => by rwa [hwire.dap]⟩
  · obtain ⟨x, rfl⟩ | ⟨oe, l, rfl⟩ := hks k hk <;> simp [EventKind.within, hne]
  · rw [hlog, gains]
  · rw [hout, map_kind_tagged]
    refine (p.levelOf_of_silent (fun k hk v => ?_) _).symm
    obtain ⟨x, rfl⟩ | ⟨oe, l, rfl⟩ := hks k hk <;> rfl

theorem swdXfer_busAction (d : DapCh) (r : Nibble) (w : Word) (s : State) : BusAction d.chan s (swdXfer d r w s).2 :=
  (SwdWire.xfer d r w s).busAction (swdXfer_driven d r w s) d

theorem swjBits_busAction (d : DapCh) (bs : List Bool) (s : State) : BusAction d.chan s (swjBits bs s) :=
  ((SwdWire.setSwdio s true s.sdo).trans (SwdWire.driveBits bs _)).busAction (driveBits_swdioOe bs _) d

theorem setSwdio_busAction (d : DapCh) (l : Bool) (s : State) : BusAction d.chan s (s.setSwdio true l) :=
  (SwdWire.setSwdio s true l).busAction rfl d

/-! ## Batches -/

/-- One step of a batch of `d`: a packet on the wire, or a write of its XFER_FSM, its batch registers or MATCH_MASK. -/
inductive BatchStep (d : DapCh) : State → State → Prop
  | packet (r : Nibble) (w : Word) (s : State) : BatchStep d s (swdXfer d r w s).2
  | setFsm (x : XferFsm) (s : State) : BatchStep d s (s.setFsm d x)
  | setBatch (b : Batch) (s : State) : BatchStep d s (s.setBatch d b)
  | setMask (w : Word) (s : State) : BatchStep d s (s.setDap d { s.dap d with matchMask := w })

/-- Any number of steps of a batch: what a batch does after its start, whatever the target answers (R231, R245). -/
abbrev BatchRun (d : DapCh) : State → State → Prop := Relation.ReflTransGen (BatchStep d)

namespace BatchRun

variable {d : DapCh} {s t u : State}

theorem ite {p : Prop} [Decidable p] (h : BatchRun d s t) (k : BatchRun d s u) :
    BatchRun d s (if p then t else u) := by
  split
  · exact h
  · exact k

theorem thenIf {p : Prop} [Decidable p] (h : BatchRun d s t) (k : BatchRun d t u) :
    BatchRun d s (if p then u else t) :=
  .ite (h.trans k) h

theorem packet (d : DapCh) (r : Nibble) (w : Word) (s : State) : BatchRun d s (swdXfer d r w s).2 :=
  .single (.packet r w s)

theorem setFsm (d : DapCh) (x : XferFsm) (s : State) : BatchRun d s (s.setFsm d x) := .single (.setFsm x s)

theorem setBatch (d : DapCh) (b : Batch) (s : State) : BatchRun d s (s.setBatch d b) := .single (.setBatch b s)

theorem retryLoop (d : DapCh) (r : Nibble) (w : Word) (n : Nat) (s : State) :
    BatchRun d s (swdRetryLoop d r w n s).2 := by
  induction n generalizing s with
  | zero => exact packet d r w s
  | succ n ih =>
    simp only [swdRetryLoop]
    split
    · exact (packet d r w s).trans ((setBatch d _ _).trans ((setFsm d _ _).trans ((setFsm d _ _).trans (ih _))))
    · exact packet d r w s

theorem access (d : DapCh) (r : Nibble) (w : Word) (s : State) : BatchRun d s (access d r w s).2 :=
  (setBatch d _ s).trans ((setFsm d _ _).trans ((retryLoop d r w _ _).trans ((setFsm d _ _).trans (setBatch d _ _))))

theorem accessEmit (d : DapCh) (r : Nibble) (s : State) : BatchRun d s (accessEmit d r s) :=
  (access d r 0 s).thenIf (setBatch d _ _)

theorem collect (d : DapCh) (req : Byte) (s : State) : BatchRun d s (collect d req s) :=
  .ite (accessEmit d _ s) ((accessEmit d _ s).trans (setBatch d _ _))

theorem plainRead (d : DapCh) (req : Byte) (s : State) : BatchRun d s (plainRead d req s) :=
  .ite (.ite .refl ((access d _ 0 s).thenIf (setBatch d _ _))) (accessEmit d _ s)

theorem matchLoop (d : DapCh) (r : Nibble) (m : Word) (n : Nat) (s : State) : BatchRun d s (matchLoop d r m n s) := by
  induction n generalizing s with
  | zero => exact .ite (access d r 0 s) (.ite (access d r 0 s) ((access d r 0 s).trans (setBatch d _ _)))
  | succ n ih =>
    exact .ite (access d r 0 s) (.ite (access d r 0 s) ((access d r 0 s).trans ((setBatch d _ _).trans (ih _))))

theorem matchRead (d : DapCh) (req : Byte) (m : Word) (s : State) : BatchRun d s (matchRead d req m s) := by
  have hstart (t : State) : BatchRun d t (matchStart d (reqNibble req) m t) :=
    (setBatch d _ t).trans (matchLoop d _ m _ _)
  exact .ite ((access d _ 0 s).thenIf (hstart _)) (hstart s)

theorem requestBody (d : DapCh) (q : XferReq) (s : State) : BatchRun d s (requestBody d q s) := by
  have hread := ite (p := reqIsMatch q.req = true) (matchRead d q.req (reqWord q) s) (plainRead d q.req s)
  have hmask : BatchRun d s (maskWrite d (reqWord q) s) :=
    (Relation.ReflTransGen.single (.setMask (reqWord q) s)).trans (setBatch d _ _)
  have hwrite : BatchRun d s (regWrite d q.req (reqWord q) s) := (access d _ _ s).thenIf (setBatch d _ _)
  exact .ite (hread.thenIf (setBatch d _ _)) (.ite hmask hwrite)

theorem oneRequest (d : DapCh) (q : XferReq) (s : State) : BatchRun d s (oneRequest d q s) :=
  .ite ((collect d q.req s).thenIf (requestBody d q _)) (requestBody d q s)

theorem transferLoop (d : DapCh) (reqs : List XferReq) (s : State) : BatchRun d s (transferLoop d reqs s) := by
  induction reqs generalizing s with
  | nil => exact .refl
  | cons q qs ih => exact (oneRequest d q s).thenIf ((setBatch d _ _).trans (ih _))

theorem transferFinish (d : DapCh) (s : State) : BatchRun d s (transferFinish d s) :=
  .ite .refl (.ite ((accessEmit d _ s).trans (setBatch d _ _))
    (.ite ((access d _ 0 s).trans (setBatch d _ _)) .refl))

/-- A DAP_Transfer after its start is a run of packets and register writes (R231). -/
theorem transferBatch (d : DapCh) (reqs : List XferReq) (s : State) :
    BatchRun d (batchStart d s) (transferBatch d reqs s) :=
  (transferLoop d reqs _).trans (transferFinish d _)

theorem blockRead (d : DapCh) (r : Nibble) (n : Nat) (s : State) : BatchRun d s (blockRead d r n s) := by
  induction n generalizing s with
  | zero => exact .refl
  | succ n ih =>
    have hread := accessEmit d (if n = 0 ∧ r.getLsbD 0 = true then rdbuff else r) s
    exact hread.thenIf ((setBatch d _ _).trans (ih _))

theorem blockWrite (d : DapCh) (r : Nibble) (ws : List Word) (s : State) : BatchRun d s (blockWrite d r ws s) := by
  induction ws generalizing s with
  | nil => exact .refl
  | cons w ws ih => exact (access d r w s).thenIf ((setBatch d _ _).trans (ih _))

/-- A DAP_TransferBlock after its start is a run of packets and register writes (R245). -/
theorem blockBatch (d : DapCh) (m : Nat) (req : Byte) (data : List Word) (s : State) :
    BatchRun d (batchStart d s) (blockBatch d m req data s) := by
  have hpost := access d (reqNibble req) 0 (batchStart d s)
  have hwrite := blockWrite d (reqNibble req) data (batchStart d s)
  exact .ite (.ite (hpost.thenIf (blockRead d _ m _)) (blockRead d _ m _)) (hwrite.thenIf (access d rdbuff 0 _))

end BatchRun

theorem BatchStep.busAction {d : DapCh} {s t : State} (h : BatchStep d s t) : BusAction d.chan s t := by
  cases h with
  | packet r w => exact swdXfer_busAction d r w s
  | setFsm x => exact .setDap d s _ id
  | setBatch b => exact .setDap d s _ id
  | setMask w => exact .setDap d s _ id

theorem BatchRun.busAction {d : DapCh} {s t : State} (h : BatchRun d s t) : BusAction d.chan s t := by
  induction h with
  | refl => exact .refl _ s
  | tail _ hstep ih => exact ih.trans hstep.busAction

/-! ## Bus actions of a DAP channel -/

theorem swdSetup_busAction (d : DapCh) (s : State) : BusAction d.chan s s.swdSetup := by
  have hmode : BusAction d.chan s ({ s with sck := true, sdo := true, swdioOe := true }.setPinMode .swd) :=
    .pins rfl (fun _ _ => rfl) s .swd true true true s.activeDiv fun _ _ => rfl
  exact hmode.trans ((SwdWire.setSwdio _ true true).busAction rfl d)

theorem busStart_busAction (d : DapCh) (s : State) : BusAction d.chan s (s.busStart d) :=
  (BusAction.ite (.refl _ s) (swdSetup_busAction d s)).trans (.setActiveDiv _ _ _)

theorem setBatch_busAction (d : DapCh) (b : Batch) (s : State) : BusAction d.chan s (s.setBatch d b) :=
  .setDap d s _ id

theorem setDapState_busAction (d : DapCh) (x : DapState) (s : State) : BusAction d.chan s (s.setDapState d x) :=
  .setDap d s _ id

theorem batchStart_busAction (d : DapCh) (s : State) : BusAction d.chan s (batchStart d s) :=
  (busStart_busAction d s).trans ((setDapState_busAction d _ _).trans (setBatch_busAction d _ _))

theorem transferBatch_busAction (d : DapCh) (reqs : List XferReq) (s : State) :
    BusAction d.chan s (transferBatch d reqs s) :=
  (batchStart_busAction d s).trans (BatchRun.transferBatch d reqs s).busAction

theorem blockBatch_busAction (d : DapCh) (m : Nat) (req : Byte) (data : List Word) (s : State) :
    BusAction d.chan s (blockBatch d m req data s) :=
  (batchStart_busAction d s).trans (BatchRun.blockBatch d m req data s).busAction

theorem connectSwd_busAction (d : DapCh) (s : State) : BusAction d.chan s (connectSwd d s) :=
  (setDapState_busAction d _ s).trans ((swdSetup_busAction d _).trans (.setActiveDiv _ _ _))

theorem releaseSwdPins_busAction (c : Chan) (s : State) : BusAction c s (releaseSwdPins s) :=
  .ite (.pins rfl (fun _ _ => rfl) s .hiZ s.sck s.sdo false s.activeDiv nofun) (.refl c s)

theorem drawElapsed_busAction (c : Chan) (s : State) (n : Nat) : BusAction c s (s.drawElapsed n).2 := by
  rw [State.drawElapsed_eq]; exact .draws c s _

theorem readPin_busAction (c : Chan) (s : State) (p : Pin) : BusAction c s (s.readPin p).2 := by
  rw [State.readPin_eq]; exact .draws c s _

theorem swjPinsWrite_busAction (d : DapCh) (output select : Byte) (s : State) :
    BusAction d.chan s (swjPinsWrite d output select s) := by
  have hsck (t : State) (b : Bool) : BusAction d.chan t ({ t with sck := b }.logEv (.pin .sck b)) :=
    .pins rfl (fun p _ => by cases p <;> rfl) t t.pinMode b t.sdo t.swdioOe t.activeDiv id
  exact (((BusAction.refl _ s).thenIf (busStart_busAction d s)).thenIf (hsck _ _)).thenIf (setSwdio_busAction d _ _)
    |>.thenIf (.setPin rfl _)

theorem pinWait_busAction (c : Chan) (output select : Byte) (wait : Word) (s : State) :
    BusAction c s (pinWait output select wait s) :=
  .ite (.refl c s) (.ite (.wait c s _ _) (.ite ((drawElapsed_busAction c s _).trans (.wait c _ _ _)) (.wait c s _ _)))

/-! ## Bus actions of the bridge -/

/-- Opening or closing a transaction (R161, R163). -/
theorem BusAction.setTxn (s : State) (b : Bool) : BusAction .ch0 s { s with brTxn := b } :=
  ⟨rfl, ⟨[], by simp, .silent rfl rfl fun p => by cases p <;> rfl⟩, fun d _ => by cases d <;> rfl, fun h => absurd rfl h,
    id, fun d h => by cases d <;> exact h⟩

theorem csWrite_busAction (s : State) (v : Bool) : BusAction .ch0 s (s.csWrite v) :=
  .ite ((BusAction.wait _ s _ _).trans ((BusAction.setPin rfl _).trans (.wait _ _ _ _)))
    (.ite ((BusAction.wait _ s _ _).trans (.setPin rfl _)) (.setPin rfl s))

theorem beginTransaction_busAction (s : State) : BusAction .ch0 s (beginTransaction s) := by
  have hspi : BusAction .ch0 s s.spiSetup :=
    .pins rfl (fun _ _ => rfl) s .spi false false s.swdioOe s.activeDiv fun _ h => nomatch h
  exact hspi.trans ((BusAction.setActiveDiv _ _ _).trans ((csWrite_busAction _ _).trans (.setTxn _ _)))

/-- `t` is `s` but for what the bits of an SPI byte write: SCK, SDO and the draws (R153). -/
def SameButSpi (s t : State) : Prop := t = { s with sck := t.sck, sdo := t.sdo, draws := t.draws }

theorem SameButSpi.trans {s t u : State} (h : SameButSpi s t) (k : SameButSpi t u) : SameButSpi s u := by
  unfold SameButSpi at *; rw [k]; rw [h]

theorem spiBits_spi (bs : List Bool) (s : State) : SameButSpi s (spiBits bs s).2 := by
  induction bs generalizing s with
  | nil => rfl
  | cons b bs ih =>
    refine SameButSpi.trans ?_ (ih _)
    rw [State.drawBit_eq]
    rfl

/-- The bits of an SPI byte leave SCK low (R153). -/
theorem spiBits_sck (bs : List Bool) (s : State) (h : s.sck = false) : (spiBits bs s).2.sck = false := by
  induction bs generalizing s with
  | nil => exact h
  | cons b bs ih => exact ih _ rfl

/-- A bus action of the bridge that leaves SCK low as it found it (R153, R155). -/
def KeepsSckLow (s t : State) : Prop := t.pinMode = s.pinMode ∧ t.brTxn = s.brTxn ∧ (s.sck = false → t.sck = false)

theorem spiXferByte_busAction (tx : Byte) (s : State) :
    BusAction .ch0 s (spiXferByte tx s).2 ∧ KeepsSckLow s (spiXferByte tx s).2 := by
  have hframe : (spiBits (spiWireBits tx) s).2 = _ := spiBits_spi (spiWireBits tx) s
  let rx := ofSpiWireBits (spiBits (spiWireBits tx) s).1
  have hbits : BusAction .ch0 s { s with draws := (spiBits (spiWireBits tx) s).2.draws } := .draws .ch0 s _
  have hevent := hbits.trans (.pins (k := .spi tx rx) rfl (fun _ _ => rfl) _ s.pinMode
    (spiBits (spiWireBits tx) s).2.sck (spiBits (spiWireBits tx) s).2.sdo s.swdioOe s.activeDiv id)
  have heq : (spiXferByte tx s).2 = (spiBits (spiWireBits tx) s).2.logEv (.spi tx rx) := rfl
  rw [heq, hframe]
  exact ⟨hevent, rfl, rfl, spiBits_sck (spiWireBits tx) s⟩

theorem spiExchangeBytes_busAction (data : List Byte) (s : State) :
    BusAction .ch0 s (spiExchangeBytes data s).2 ∧ KeepsSckLow s (spiExchangeBytes data s).2 := by
  induction data generalizing s with
  | nil => exact ⟨.refl _ s, rfl, rfl, id⟩
  | cons tx txs ih =>
    obtain ⟨hact, hmode, htxn, hsck⟩ := spiXferByte_busAction tx s
    obtain ⟨kact, kmode, ktxn, ksck⟩ := ih (spiXferByte tx s).2
    exact ⟨hact.trans kact, kmode.trans hmode, ktxn.trans htxn, ksck ∘ hsck⟩

end Sys2Proof.Machine
end

section
/-! SUPPORT. What an instruction can do, said once: it answers without the bus, waits for the lease, or runs a bus action
under the lease; and what a frame that decodes can be. -/

namespace Sys2Proof.Machine

/-! ## The outcome of a command -/

/-- The command `i` takes a lease now (R130): on CH0 only outside a transaction. -/
def State.needsLease (s : State) (i : Instr) : Bool := Instr.takesLease i && !(Instr.chan i == .ch0 && s.brTxn)

/-- What a command without the bus may write: draws, and on the bridge BR_DIV (R165, R166). -/
structure OffBus (c : Chan) (s t : State) : Prop where
  frame : t = { s with draws := t.draws, brDiv := t.brDiv }
  otherDiv : c ≠ .ch0 → t.brDiv = s.brDiv

/-- The state in which a bus action of `c` starts, and why its command may run there (R124, R125, R130): inside the open
transaction of the bridge, after a grant in an earlier step, or with the grant in this step. -/
inductive BusStart (c : Chan) (s : State) (lease : Bool) : State → Prop
  | inTransaction (hc : c = .ch0) (htxn : s.brTxn = true) (howner : s.owner = some c) : BusStart c s lease s
  | granted (hlease : lease = true) (hphase : (s.front c).phase = .granted) (howner : s.owner = some c) :
    BusStart c s lease s
  | grants (hlease : lease = true) (hfree : s.Free) : BusStart c s lease (s.grant c)

/-- Inside a transaction the shared pins are in SPI mode with SCK low, and outside it CS_N is high (R155, R161). -/
def State.BridgePins (s : State) : Prop :=
  (s.brTxn = true → s.pinMode = .spi ∧ s.sck = false) ∧ (s.brTxn = false → s.csN = true)

/-- A bus action of `c` after which the lease is to be released exactly if `release`: the bridge keeps it for the open
transaction alone (R130). -/
structure LeasedRun (c : Chan) (s t : State) (release : Bool) : Prop where
  action : BusAction c s t
  keeps : release = false → c = .ch0 ∧ t.brTxn = true
  ends : release = true → c = .ch0 → t.brTxn = false
  pins : c = .ch0 → s.BridgePins → t.BridgePins

/-- What a command of `c` may do in a step from `s`; `lease` says that it is a command that takes a lease. -/
inductive CommandOutcome (c : Chan) (s : State) (lease : Bool) : State → Prop
  | answers {t : State} (resp : Option Frame) (hlease : lease = false) (hoff : OffBus c s t) :
    CommandOutcome c s lease (t.respond c resp false)
  | waits (hlease : lease = true) (howner : s.owner ≠ some c) (hpending : c ∉ s.pending)
    (hwaits : (s.acquire c).owner ≠ some c) : CommandOutcome c s lease (s.acquire c)
  | runs {t u : State} (resp : Option Frame) (release : Bool) (hstart : BusStart c s lease t)
    (hrun : LeasedRun c t u release) : CommandOutcome c s lease (u.respond c resp release)
  | boots {t : State} (hc : c = .ch0) (hstart : BusStart c s lease t) : CommandOutcome c s lease (bootTrigger t)

/-- Asking for a free lease with nobody waiting is its grant. -/
theorem State.acquire_grant {s : State} {c : Chan} (h : s.Free) : s.acquire c = s.grant c := by
  rw [State.acquire_free h.1 h.2, State.grant_eq, State.grant_eq]
  obtain ⟨-, hpending⟩ := h
  cases c <;> simp [State.setPhase, State.setFront, State.front, hpending]

/-- A channel that asks for the lease and owns it at once found it free, with nobody waiting. -/
theorem State.free_of_acquire_owner {s : State} {c : Chan} (howner : s.owner ≠ some c) (hpending : c ∉ s.pending)
    (h : (s.acquire c).owner = some c) : s.Free := by
  cases ho : s.owner with
  | some x =>
    rw [State.acquire_held ho, State.setPhase_owner] at h
    exact absurd h howner
  | none =>
    cases hp : s.pending with
    | nil => exact ⟨ho, hp⟩
    | cons x xs =>
      have hgrant : s.acquire c = State.grant (State.setPhase { s with pending := s.pending ++ [c] } c .waiting) x := by
        simp [State.acquire, State.arbitrate, hp, ho]
      rw [hgrant, State.grant_owner, Option.some_inj] at h
      exact absurd (by simp [hp, h]) hpending

/-- A command that takes a lease and answers under it. -/
theorem underLease_outcome {c : Chan} {k : State → State} {s t : State} (hruns : ∀ u, BusStart c s true u →
    CommandOutcome c s true (k u)) (h : underLease c k s = .next t) : CommandOutcome c s true t := by
  obtain ⟨hphase, howner, rfl⟩ | ⟨-, howner, hpending, rfl⟩ := underLease_next.mp h
  · exact hruns s (.granted rfl hphase howner)
  · split
    · rename_i hown
      have hfree := State.free_of_acquire_owner howner hpending hown
      rw [State.acquire_grant hfree]
      exact hruns _ (.grants rfl hfree)
    · rename_i hown
      exact .waits rfl howner hpending hown

/-- A DAP command under the lease wrapper of R220. -/
theorem leasedCommand_outcome {d : DapCh} {k : State → Frame × State} {s t : State}
    (hk : ∀ u, BusAction d.chan u (k u).2) (h : leasedCommand d.chan k s = .next t) :
    CommandOutcome d.chan s true t := by
  have hne : d.chan ≠ .ch0 := by cases d <;> simp [DapCh.chan]
  exact underLease_outcome (fun u hu => .runs _ true hu ⟨hk u, nofun, fun _ hc => absurd hc hne, fun hc => absurd hc hne⟩)
    h

/-- A command that answers in one of two ways. -/
theorem BusAction.snd_ite {c : Chan} {p : Prop} [Decidable p] {s : State} {x y : Frame × State}
    (h : BusAction c s x.2) (k : BusAction c s y.2) : BusAction c s (if p then x else y).2 := by
  split
  · exact h
  · exact k

/-- An error response writes nothing else (R287). -/
theorem raise_outcome {c : Chan} (s : State) (f : Frame) : CommandOutcome c s false (s.raise c f) :=
  .answers (some f) rfl ⟨rfl, fun _ => rfl⟩

/-- An SPI bridge error writes nothing else (R80). -/
theorem raiseBridge_outcome {s t : State} {e : BridgeError} (h : (.next (s.raiseBridge e) : Result) = .next t) :
    CommandOutcome .ch0 s false t := by
  obtain rfl := Host.Outcome.next.inj h
  exact raise_outcome s _

end Sys2Proof.Machine
end

section
/-! SUPPORT. The outcome of every instruction and of every frame, and the statements that follow for every state:
isolation of the channels, and GET_GPIO with the held bus events. -/

namespace Sys2Proof.Machine

/-! ## The bridge -/

theorem execSpiBegin_outcome {s t : State} (h : execSpiBegin s = .next t) :
    CommandOutcome .ch0 s (s.needsLease .spiBegin) t := by
  unfold execSpiBegin at h
  split at h
  · rename_i htxn
    simpa [State.needsLease, Instr.chan, htxn] using raiseBridge_outcome h
  · rename_i htxn
    have hpins (u : State) : (beginTransaction u).BridgePins :=
      ⟨fun _ => by rw [beginTransaction, State.csWrite_eq]; exact ⟨rfl, rfl⟩, nofun⟩
    simpa [State.needsLease, Instr.chan, Instr.takesLease, htxn] using underLease_outcome (fun u hu => .runs _ false hu
      ⟨beginTransaction_busAction u, fun _ => ⟨rfl, rfl⟩, nofun, fun _ _ => hpins u⟩) h

theorem OffBus.refl (c : Chan) (s : State) : OffBus c s s := ⟨rfl, fun _ => rfl⟩

/-- An EXCHANGE of no byte touches no bus; any other runs inside the transaction (R162). -/
theorem execSpiExchange_outcome {data : List Byte} {s t : State} (h : execSpiExchange data s = .next t) :
    CommandOutcome .ch0 s false t := by
  unfold execSpiExchange at h
  split at h
  · exact raiseBridge_outcome h
  · rename_i htxn
    have htxn : s.brTxn = true := by simpa using htxn
    by_cases hdata : data = []
    · subst hdata
      obtain rfl : _ = t := by simpa [spiExchangeBytes] using h
      exact .answers _ rfl (.refl .ch0 s)
    · obtain ⟨hact, hmode, htxn', hsck⟩ := spiExchangeBytes_busAction data s
      split at h
      · simp at h
      · rename_i howner
        split at h
        · simp at h
        · obtain rfl := Host.Outcome.next.inj h
          have howner : s.owner = some .ch0 := by simpa [hdata] using howner
          refine .runs _ false (.inTransaction rfl htxn howner) ⟨hact, fun _ => ⟨rfl, htxn'.trans htxn⟩, nofun, ?_⟩
          rintro - ⟨hspi, -⟩
          exact ⟨fun _ => ⟨hmode.trans (hspi htxn).1, hsck (hspi htxn).2⟩, fun hno => by simp [htxn', htxn] at hno⟩

/-- A bus action inside the transaction of the bridge. -/
theorem onBus_outcome {k : State → State} {resp : Option Frame} {release lease : Bool} {s t : State}
    (htxn : s.brTxn = true) (hrun : LeasedRun .ch0 s (k s) release)
    (h : onBus .ch0 (fun u => (k u).respond .ch0 resp release) s = .next t) : CommandOutcome .ch0 s lease t := by
  obtain ⟨howner, rfl⟩ := onBus_next.mp h
  exact .runs _ release (.inTransaction rfl htxn howner) hrun

theorem execSpiEnd_outcome {s t : State} (h : execSpiEnd s = .next t) : CommandOutcome .ch0 s false t := by
  unfold execSpiEnd at h
  split at h
  · exact raiseBridge_outcome h
  · rename_i htxn
    have hact : BusAction .ch0 s { s.csWrite true with brTxn := false } := (csWrite_busAction s true).trans (.setTxn _ _)
    have hcs : (s.csWrite true).csN = true := by rw [State.csWrite_eq]
    have hrun : LeasedRun .ch0 s { s.csWrite true with brTxn := false } true :=
      ⟨hact, nofun, fun _ _ => rfl, fun _ _ => ⟨nofun, fun _ => hcs⟩⟩
    obtain ⟨howner, rfl⟩ := onBus_next.mp h
    exact .runs _ true (.inTransaction rfl (by simpa using htxn) howner) hrun

/-- Writing an output inside the transaction keeps it (R164). -/
theorem LeasedRun.inTransaction {s t : State} (htxn : s.brTxn = true) (hact : BusAction .ch0 s t)
    (hmode : t.pinMode = s.pinMode) (hsck : t.sck = s.sck) (ht : t.brTxn = s.brTxn) : LeasedRun .ch0 s t false := by
  refine ⟨hact, fun _ => ⟨rfl, ht.trans htxn⟩, nofun, ?_⟩
  rintro - ⟨hspi, -⟩
  exact ⟨fun _ => by rw [hmode, hsck]; exact hspi htxn, fun hno => by simp [ht, htxn] at hno⟩

/-- Writing RESET_N or POWER_EN, inside the transaction or under a lease of this frame (R164). -/
theorem setPin_outcome {p : OutPin} {v : Bool} (hp : p ≠ .csN) {s t : State}
    (h : (if s.brTxn = true then
        onBus .ch0 (fun t => (t.setPin p v).respond .ch0 (some (bridgeReply [])) false) s
      else leasedCommand .ch0 (fun t => (bridgeReply [], t.setPin p v)) s) = .next t) :
    CommandOutcome .ch0 s (!s.brTxn) t := by
  have hk : (EventKind.pin (outPin p) v).within .ch0 = true := by cases p <;> rfl
  have hfields (u : State) : (u.setPin p v).pinMode = u.pinMode ∧ (u.setPin p v).sck = u.sck ∧
      (u.setPin p v).brTxn = u.brTxn ∧ (u.setPin p v).csN = u.csN := by
    cases p <;> first | exact absurd rfl hp | exact ⟨rfl, rfl, rfl, rfl⟩
  split at h
  · rename_i htxn
    obtain ⟨hmode, hsck, ht, -⟩ := hfields s
    exact onBus_outcome htxn (.inTransaction htxn (.setPin hk s) hmode hsck ht) h
  · rename_i htxn
    rw [show (!s.brTxn) = true by simpa using htxn]
    refine underLease_outcome (fun u hu => ?_) h
    obtain ⟨hmode, hsck, ht, hcs⟩ := hfields u
    have hutxn : u.brTxn = false := by
      cases hu with
      | inTransaction _ h _ => exact absurd h htxn
      | granted => simpa using htxn
      | grants => rw [State.grant_eq, State.setPhase_brTxn]; simpa using htxn
    refine .runs _ true hu ⟨.setPin hk u, nofun, fun _ _ => ht.trans hutxn, fun _ hpins => ?_⟩
    simpa only [State.BridgePins, hmode, hsck, ht, hcs] using hpins

/-- What the pin and the level bytes of a SET_GPIO make of it (R85, R130, R164). -/
theorem takesLease_setGpio (pin level : Byte) : Instr.takesLease (.setGpio pin level) =
    (decide (bridgePin pin = .output .resetN ∨ bridgePin pin = .output .powerEn) && (bridgeLevel level).isSome) := by
  have hpin : (pin == 0x01 || pin == 0x02) =
      decide (bridgePin pin = .output .resetN ∨ bridgePin pin = .output .powerEn) := by
    revert pin; decide
  have hlevel : (level == 0x00 || level == 0x01) = (bridgeLevel level).isSome := by revert level; decide
  rw [← hpin, ← hlevel]
  rfl

theorem execSetGpio_outcome {pin level : Byte} {s t : State} (h : execSetGpio pin level s = .next t) :
    CommandOutcome .ch0 s (s.needsLease (.setGpio pin level)) t := by
  have hlease : s.needsLease (.setGpio pin level) =
      (decide (bridgePin pin = .output .resetN ∨ bridgePin pin = .output .powerEn) && (bridgeLevel level).isSome &&
        !s.brTxn) := by
    rw [State.needsLease, takesLease_setGpio]; simp [Instr.chan]
  rw [hlease]
  unfold execSetGpio at h
  split at h
  · rename_i p v hpin hlevel
    rw [hpin, hlevel]
    cases p with
    | csN =>
      simp only [setOutput] at h
      split at h
      · simpa using raiseBridge_outcome h
      · rename_i htxn
        have htxn : s.brTxn = true := by simpa using htxn
        refine onBus_outcome htxn (.inTransaction htxn (csWrite_busAction s v) ?_ ?_ ?_) h <;> rw [State.csWrite_eq]
    | resetN => simpa using setPin_outcome (p := .resetN) nofun h
    | powerEn => simpa using setPin_outcome (p := .powerEn) nofun h
  · rename_i hno
    have hfalse : (decide (bridgePin pin = .output .resetN ∨ bridgePin pin = .output .powerEn) &&
        (bridgeLevel level).isSome) = false := by
      cases hpin : bridgePin pin with
      | output p =>
        cases hlevel : bridgeLevel level with
        | some v => exact (hno p v hpin hlevel).elim
        | none => simp
      | _ => rfl
    rw [hfalse, Bool.false_and]
    exact raiseBridge_outcome h

theorem execGetGpio_outcome {pin : Byte} {s t : State} (h : execGetGpio pin s = .next t) :
    CommandOutcome .ch0 s false t := by
  have hoff (p : Pin) : OffBus .ch0 s (s.readPin p).2 := by
    rw [State.readPin_eq]; exact ⟨rfl, fun h => absurd rfl h⟩
  unfold execGetGpio at h
  split at h
  · obtain rfl := Host.Outcome.next.inj h
    exact .answers _ rfl (hoff _)
  · obtain rfl := Host.Outcome.next.inj h
    exact .answers _ rfl (hoff _)
  · exact raiseBridge_outcome h

theorem execSetClock_outcome {hz : Word} {s t : State} (h : execSetClock hz s = .next t) :
    CommandOutcome .ch0 s false t := by
  unfold execSetClock at h
  split at h
  · exact raiseBridge_outcome h
  · obtain rfl := Host.Outcome.next.inj h
    exact .answers _ rfl ⟨rfl, fun h => absurd rfl h⟩

theorem execBootload_outcome {s t : State} (h : execBootload s = .next t) :
    CommandOutcome .ch0 s (s.needsLease .bootload) t := by
  unfold execBootload at h
  split at h
  · rename_i htxn
    obtain ⟨howner, rfl⟩ := onBus_next.mp h
    exact .boots rfl (.inTransaction rfl htxn howner)
  · rename_i htxn
    simpa [State.needsLease, Instr.chan, Instr.takesLease, htxn] using
      underLease_outcome (fun u hu => .boots rfl hu) h

/-! ## Every instruction -/

theorem setResetN_busAction (c : Chan) (s : State) (v : Bool) : BusAction c s (s.setPin .resetN v) :=
  .setPin (p := .resetN) rfl s

/-- A DAP command under the lease wrapper takes a lease, whatever the bridge does (R220). -/
theorem CommandOutcome.ofDap {d : DapCh} {i : Instr} {s t : State} (hchan : Instr.chan i = d.chan)
    (hlease : Instr.takesLease i = true) (h : CommandOutcome d.chan s true t) :
    CommandOutcome (Instr.chan i) s (s.needsLease i) t := by
  have hneeds : s.needsLease i = true := by
    rw [State.needsLease, hlease, hchan]; cases d <;> rfl
  rwa [hneeds, hchan]

/-- Every frame's instruction answers without the bus, waits, runs a bus action under the lease, or boots. -/
theorem exec_outcome {i : Instr} {s t : State} (hi : Laws.tableChan i ≠ none) (h : exec i s = .next t) :
    CommandOutcome (Instr.chan i) s (s.needsLease i) t := by
  cases i with
  | spiBegin => exact execSpiBegin_outcome h
  | spiExchange data => exact execSpiExchange_outcome h
  | spiEnd => exact execSpiEnd_outcome h
  | setGpio pin level => exact execSetGpio_outcome h
  | getGpio pin => exact execGetGpio_outcome h
  | setClock hz => exact execSetClock_outcome h
  | bootload => exact execBootload_outcome h
  | dapInfo d id =>
    simp only [exec, execDapInfo] at h
    exact .ofDap rfl rfl (leasedCommand_outcome (fun u => .refl _ u) h)
  | dapHostStatus d type status =>
    simp only [exec, execDapHostStatus] at h
    exact .ofDap rfl rfl (leasedCommand_outcome (fun u => .refl _ u) h)
  | dapConnect d port =>
    simp only [exec, execDapConnect] at h
    exact .ofDap rfl rfl (leasedCommand_outcome (fun u => .snd_ite (connectSwd_busAction d u) (.refl _ u)) h)
  | dapDisconnect d =>
    simp only [exec, execDapDisconnect] at h
    exact .ofDap rfl rfl (leasedCommand_outcome (fun u =>
      (setDapState_busAction d _ u).trans (releaseSwdPins_busAction _ _)) h)
  | dapTransferConfigure d idle w m =>
    simp only [exec, execDapTransferConfigure] at h
    refine .ofDap rfl rfl (leasedCommand_outcome (fun u => ?_) h)
    exact .setDap d u _ id
  | dapTransfer d idx reqs =>
    simp only [exec, execDapTransfer] at h
    exact .ofDap rfl rfl (leasedCommand_outcome (fun u =>
      .snd_ite (transferBatch_busAction d reqs u) (.refl _ u)) h)
  | dapTransferBlock d idx count req data =>
    simp only [exec, execDapTransferBlock] at h
    exact .ofDap rfl rfl (leasedCommand_outcome (fun u =>
      .snd_ite (blockBatch_busAction d _ req data u) (.refl _ u)) h)
  | dapTransferAbort d =>
    obtain rfl := Host.Outcome.next.inj h
    exact .answers none rfl (.refl _ s)
  | dapWriteAbort d idx a =>
    simp only [exec, execDapWriteAbort] at h
    exact .ofDap rfl rfl (leasedCommand_outcome (fun u =>
      .snd_ite ((busStart_busAction d u).trans (swdXfer_busAction d _ a _)) (.refl _ u)) h)
  | dapDelay d us =>
    simp only [exec, execDapDelay] at h
    exact .ofDap rfl rfl (leasedCommand_outcome (fun u => .wait _ u _ _) h)
  | dapResetTarget d =>
    simp only [exec, execDapResetTarget] at h
    refine .ofDap rfl rfl (leasedCommand_outcome (fun u => ?_) h)
    exact (setResetN_busAction d.chan u _).trans ((BusAction.wait _ _ _ _).trans (setResetN_busAction _ _ _))
  | dapSwjPins d output select wait =>
    simp only [exec, execDapSwjPins] at h
    refine .ofDap rfl rfl (leasedCommand_outcome (fun u => ?_) h)
    have hwait := (swjPinsWrite_busAction d output select u).trans (pinWait_busAction d.chan output select wait _)
    exact hwait.trans ((readPin_busAction _ _ .sck).trans (readPin_busAction _ _ .mosi))
  | dapSwjClock d hz =>
    simp only [exec, execDapSwjClock] at h
    refine .ofDap rfl rfl (leasedCommand_outcome (fun u => .snd_ite (.refl _ u) ?_) h)
    exact .setDap d u _ id
  | dapSwjSequence d count data =>
    simp only [exec, execDapSwjSequence] at h
    exact .ofDap rfl rfl (leasedCommand_outcome (fun u =>
      .snd_ite ((busStart_busAction d u).trans (swjBits_busAction d _ _)) (.refl _ u)) h)
  | dapSwdConfigure d config =>
    simp only [exec, execDapSwdConfigure] at h
    refine .ofDap rfl rfl (leasedCommand_outcome (fun u => .setDap d u _ fun _ => ?_) h)
    simp only [configTurnaround]
    omega
  | swdDpWrite d a w => exact absurd rfl hi
  | swdApWrite d a w => exact absurd rfl hi
  | swdDpRead d a => exact absurd rfl hi
  | swdApRead d a => exact absurd rfl hi

/-- A packet at the engine's port runs as a bus action of its channel, which owns the lease. -/
theorem runPacket_next {d : DapCh} {r : Nibble} {w : Word} {s t : State} (h : runPacket d r w s = .next t) :
    ∃ u res, BusAction d.chan s u ∧ t = { u with swdPort := none, swdResult := res } := by
  unfold runPacket at h
  split at h
  · simp at h
  · split at h
    · simp at h
    · exact ⟨_, _, swdXfer_busAction d r w s, (Host.Outcome.next.inj h).symm⟩

/-- An instruction that is no frame's is a packet at the engine's port. -/
theorem exec_packet {i : Instr} {s t : State} (hi : Laws.tableChan i = none) (h : exec i s = .next t) :
    ∃ u res, BusAction (Instr.chan i) s u ∧ t = { u with swdPort := none, swdResult := res } := by
  cases i with
  | swdDpWrite d a w => exact runPacket_next h
  | swdApWrite d a w => exact runPacket_next h
  | swdDpRead d a => exact runPacket_next h
  | swdApRead d a => exact runPacket_next h
  | _ => simp [Laws.tableChan] at hi

/-! ## Frames -/

theorem Instr.chan_of_tableChan {i : Instr} {c : Chan} (h : Laws.tableChan i = some c) : Instr.chan i = c := by
  cases i <;> simp_all [Laws.tableChan, Instr.chan]

/-- What a decoder accepts is an instruction of the channel `c`. -/
def DecodesFor (c : Chan) (o : Except DecodeError Instr) : Prop := ∀ i, o = .ok i → Laws.tableChan i = some c

theorem DecodesFor.error (c : Chan) (e : DecodeError) : DecodesFor c (.error e) := nofun

theorem DecodesFor.ok {c : Chan} {i : Instr} (h : Laws.tableChan i = some c) : DecodesFor c (.ok i) := by
  rintro _ ⟨⟩; exact h

theorem DecodesFor.ite {c : Chan} {p : Prop} [Decidable p] {o u : Except DecodeError Instr} (h : DecodesFor c o)
    (k : DecodesFor c u) : DecodesFor c (if p then o else u) := by
  split
  · exact h
  · exact k

/-- A bridge frame of the length that its opcode requires is one of the seven commands (R82, R107). -/
theorem bridgeFields_chan {f : Frame} (h : requiredLenBridge f = some f.length) : DecodesFor .ch0 (bridgeFields f) := by
  cases f with
  | nil => simp [requiredLenBridge] at h
  | cons op rest =>
    simp only [requiredLenBridge] at h
    split at h
    · rename_i hop
      obtain rfl : rest = [] := by simpa using h
      obtain rfl | rfl | rfl := hop <;> exact .ok rfl
    · split at h
      · rename_i hop
        obtain ⟨pin, level, rfl⟩ := List.length_eq_two.mp (by simpa using h.symm : rest.length = 2)
        subst hop
        exact .ok rfl
      · split at h
        · rename_i hop
          obtain ⟨pin, rfl⟩ := List.length_eq_one_iff.mp (by simpa using h.symm : rest.length = 1)
          subst hop
          exact .ok rfl
        · split at h
          · rename_i hop
            obtain ⟨h0, h1, h2, h3, rfl⟩ : ∃ h0 h1 h2 h3, rest = [h0, h1, h2, h3] := by
              match rest, h with
              | [h0, h1, h2, h3], _ => exact ⟨h0, h1, h2, h3, rfl⟩
            subst hop
            exact .ok rfl
          · split at h
            · rename_i hop
              subst hop
              match rest, h with
              | nL :: nH :: data, _ => exact .ok rfl
            · simp at h
/-- A DAP frame is a command of its own channel (R90): each ID has one command, and reads its fields or is too short. -/
theorem dapFields_chan (d : DapCh) (f : Frame) : DecodesFor d.chan (dapFields d f) := by
  cases f with
  | nil => exact .error _ _
  | cons id args =>
    unfold dapFields
    dsimp only
    refine .ite ?_ (.ite ?_ (.ite ?_ (.ite (.ok rfl) (.ite ?_ (.ite ?transfer (.ite ?block (.ite (.ok rfl) (.ite ?_
      (.ite ?_ (.ite (.ok rfl) (.ite ?_ (.ite ?_ (.ite ?sequence (.ite ?_ (.error _ _)))))))))))))))
    case transfer =>
      split
      · split
        · exact .ok rfl
        · exact .error _ _
      · exact .error _ _
    case block =>
      split
      · refine .ite (.ok rfl) ?_
        split
        · exact .ok rfl
        · exact .error _ _
      · exact .error _ _
    case sequence =>
      split
      · exact .ite (.error _ _) (.ok rfl)
      · exact .error _ _
    all_goals
      split
      · exact .ok rfl
      · exact .error _ _

/-- A frame of a channel decodes to an instruction of that channel (R107, R110). -/
theorem decode_frame_chan (p : Params) (c : Chan) (f : Frame) : DecodesFor c (decode p (.frame c f)) := by
  have hdap (d : DapCh) : DecodesFor d.chan (decodeDap p d f) := by
    have hfields := dapFields_chan d f
    unfold decodeDap
    split
    · exact .error _ _
    · rename_i i hi
      exact .ite (.error _ _) (.ok (hfields i hi))
  cases c with
  | ch0 =>
    simp only [decode, decodeBridge]
    split
    · split
      · exact .error _ _
      · exact .ite (.error _ _) (.error _ _)
    · rename_i n hn
      split
      · exact .error _ _
      · rename_i hlen
        obtain rfl : f.length = n := by simpa using hlen
        exact .ite (.error _ _) (bridgeFields_chan hn)
  | ch1 => exact hdap .v1
  | ch2 => exact hdap .v2

/-- Running the frame of a channel is a command of that channel, which takes a lease if the frame asks for one. -/
theorem runFrame_outcome {c : Chan} {f : Frame} {s t : State} (hrx : (s.front c).rx = some f)
    (h : runFrame c f s = .next t) : CommandOutcome c s (s.wantsLease c) t := by
  unfold runFrame at h
  split at h
  · rename_i i hi
    have htable := decode_frame_chan s.cfg c f i hi
    have hchan := Instr.chan_of_tableChan htable
    have hwants : s.wantsLease c = s.needsLease i := by simp [State.wantsLease, State.needsLease, hrx, hi, hchan]
    have hout := exec_outcome (by simp [htable]) h
    rwa [hchan, ← hwants] at hout
  · rename_i e he
    have hwants : s.wantsLease c = false := by simp [State.wantsLease, hrx, he]
    obtain rfl := Host.Outcome.next.inj h
    rw [hwants]
    exact raise_outcome s _

end Sys2Proof.Machine
end

section
/-! SUPPORT. What one step of a channel does to LOG, to the outputs and to the other channels. -/

namespace Sys2Proof.Machine

/-! ## What a command records -/

/-- The events of a grant, if there is one. -/
def IsGrant (es : List Event) : Prop := es = [] ∨ ∃ x, es = [⟨some x, .grant x⟩]

/-- A grant records its event alone. -/
theorem State.grant_records (s : State) (x : Chan) : Records s (s.grant x) [⟨some x, .grant x⟩] := by
  refine ⟨State.grant_log s x, by rw [State.grant_eq, State.setPhase_ahead], fun p => ?_⟩
  cases x <;> cases p <;> rfl

/-- Asking for the lease records at most a grant. -/
theorem State.acquire_records (s : State) (c : Chan) : ∃ es, IsGrant es ∧ Records s (s.acquire c) es := by
  have hask : Records s (State.setPhase { s with pending := s.pending ++ [c] } c .waiting) [] :=
    .silent (State.setPhase_log ..) (State.setPhase_ahead ..) fun p => by cases c <;> cases p <;> rfl
  unfold State.acquire
  obtain ⟨x, xs, -, -, hgrant⟩ | ⟨-, hsame⟩ :=
    State.arbitrate_cases (State.setPhase { s with pending := s.pending ++ [c] } c .waiting)
  · exact ⟨_, .inr ⟨x, rfl⟩, hgrant ▸ hask.trans (State.grant_records _ x)⟩
  · exact ⟨_, .inl rfl, hsame.symm ▸ hask⟩

theorem State.respond_records (s : State) (c : Chan) (r : Option Frame) (b : Bool) : Records s (s.respond c r b) [] :=
  .silent (by simp) (by simp) fun p => by cases c <;> cases p <;> rfl

theorem BusStart.records {c : Chan} {s t : State} {lease : Bool} (h : BusStart c s lease t) :
    ∃ es, IsGrant es ∧ Records s t es := by
  cases h with
  | inTransaction => exact ⟨[], .inl rfl, .silent rfl rfl fun _ => rfl⟩
  | granted => exact ⟨[], .inl rfl, .silent rfl rfl fun _ => rfl⟩
  | grants => exact ⟨_, .inr ⟨c, rfl⟩, s.grant_records c⟩

theorem BusStart.owner {c : Chan} {s t : State} {lease : Bool} (h : BusStart c s lease t) : t.owner = some c := by
  cases h with
  | inTransaction _ _ howner => exact howner
  | granted _ _ howner => exact howner
  | grants => exact State.grant_owner s c

/-- The trigger of R167 is a bus action followed by the end of its command. -/
theorem bootTrigger_records {s : State} (h : s.owner = some .ch0) : Records s (bootTrigger s) [⟨some .ch0, .boot⟩] := by
  rw [bootTrigger_eq h]
  exact ⟨rfl, rfl, fun p => by cases p <;> rfl⟩

/-- A command records a grant, if one comes in its step, and then events of its own lease (R47, R134). -/
theorem CommandOutcome.records {c : Chan} {s t : State} {lease : Bool} (h : CommandOutcome c s lease t) :
    ∃ (es : List Event) (ks : List EventKind), IsGrant es ∧ (∀ k ∈ ks, k.within c = true) ∧
      Records s t (es ++ ks.map fun k => ⟨t.owner, k⟩) := by
  cases h with
  | answers resp _ hoff =>
    refine ⟨[], [], .inl rfl, by simp, Records.trans (.silent ?_ ?_ fun p => ?_) (State.respond_records _ c resp false)⟩
    all_goals rw [hoff.frame]
    cases p <;> rfl
  | waits =>
    obtain ⟨es, hgrant, hrec⟩ := s.acquire_records c
    exact ⟨es, [], hgrant, by simp, by simpa using hrec⟩
  | @runs u v resp release hstart hrun =>
    obtain ⟨es, hgrant, hrec⟩ := hstart.records
    obtain ⟨ks, hks, krec⟩ := hrun.action.records
    refine ⟨es, ks, hgrant, hks, ?_⟩
    rw [State.respond_owner, hrun.action.owner]
    simpa using (hrec.trans krec).trans (State.respond_records v c resp release)
  | @boots u hc hstart =>
    subst hc
    obtain ⟨es, hgrant, hrec⟩ := hstart.records
    have howner : (bootTrigger u).owner = some .ch0 := by rw [bootTrigger_eq hstart.owner]; exact hstart.owner
    exact ⟨es, [.boot], hgrant, by simp [EventKind.within], howner ▸ hrec.trans (bootTrigger_records hstart.owner)⟩

/-- Every instruction records its events, whose outputs follow from them. -/
theorem exec_records {i : Instr} {s t : State} (h : exec i s = .next t) : ∃ es, Records s t es := by
  by_cases hi : Laws.tableChan i = none
  · obtain ⟨u, res, hact, rfl⟩ := exec_packet hi h
    obtain ⟨ks, -, hlog, hahead, hout⟩ := hact.records
    exact ⟨_, hlog, hahead, fun p => (by cases p <;> rfl : _ = u.outReg p).trans (hout p)⟩
  · obtain ⟨es, ks, -, -, hrec⟩ := (exec_outcome hi h).records
    exact ⟨_, hrec⟩

/-! ## GET_GPIO and the held events -/

/-- The level of an output after some events is the one that the last of its own events gives it (R156). -/
theorem OutPin.levelOf_last (p : OutPin) (es : List Event) (v : Bool) : p.levelOf (es.map Event.kind) v =
    ((es.filterMap fun e =>
      if e.kind = .pin (outPin p) true then some true
      else if e.kind = .pin (outPin p) false then some false
      else none).getLast?.getD v) := by
  induction es generalizing v with
  | nil => rfl
  | cons e es ih =>
    obtain ⟨tag, kind⟩ := e
    rw [List.map_cons, OutPin.levelOf_cons, ih, List.filterMap_cons]
    cases kind with
    | pin q l =>
      by_cases hq : q = outPin p
      · subst hq
        cases l <;> simp [OutPin.levelAfter, List.getLast?_cons]
      · simp [OutPin.levelAfter, hq]
    | _ => rfl

theorem bridgePin_unknown {pin : Byte} (h : 3 < pin.toNat) : bridgePin pin = .unknown := by
  have hne (b : Byte) (hb : b.toNat ≤ 3) : pin ≠ b := by rintro rfl; omega
  simp [bridgePin, hne 0#8 (by decide), hne 1#8 (by decide), hne 2#8 (by decide), hne 3#8 (by decide)]

/-- Settles O32: GET_GPIO reads the registers; the bus move executes the next events; and what a command holds back are
the last events that it recorded. -/
theorem getGpioReads : Obligations.GetGpioReads := by
  refine ⟨fun s => ⟨rfl, rfl, rfl, fun b bs h => ?_, ?_, fun pin h => ?_⟩, fun s n hboot => ?_,
    fun s t i hold h hahead => ?_⟩
  · have hread : s.readPin .cdone = (b, { s with draws := { s.draws with cdone := bs } }) := by
      simp [State.readPin, State.drawBit, h]
    simp only [exec, execGetGpio, show bridgePin 0x03 = .cdoneInput from rfl, hread]
    rfl
  · refine ⟨(s.readPin .cdone).1, (s.readPin .cdone).2.draws, ?_⟩
    rw [← State.readPin_eq]
    rfl
  · simp only [exec, execGetGpio, bridgePin_unknown h]
    rfl
  · obtain ⟨hbus, hlog, hleft⟩ := playEvents_spec n s
    refine ⟨playEvents n s, by simp [applyMove, hboot], ?_, fun p => ?_⟩
    · rw [← hlog, ← hleft]; exact hbus
    · rw [playEvents_outReg, OutPin.levelOf_last]
  · intro u
    obtain ⟨es, hrec⟩ := exec_records h
    obtain ⟨now, later, hheld⟩ := State.holdBack_held (Instr.chan i) hold hrec hahead
    refine ⟨hheld.settled, ?_, ?_, now.reverse, hheld.log⟩
    · rw [show u.ahead = later from hheld.ahead]; exact hheld.bound
    · rw [show u.ahead = later from hheld.ahead, show u.log = _ from hheld.log, hrec.1, hheld.split]
      simp

end Sys2Proof.Machine
end

section
/-! SUPPORT. What one step of a channel can be, and that it leaves the other channels alone (R23, R286). -/

namespace Sys2Proof.Machine

/-! ## The step of a channel -/

/-- The state in which a channel runs the frame in its slot: the frame taken, or the state after its grant (R121). -/
def Begins (c : Chan) (s u : State) : Prop :=
  (s.front c).rx ≠ none ∧
    (((s.front c).phase = .idle ∧ (s.front c).busy = false ∧ u = s.takeFrame c) ∨
      ((s.front c).phase = .granted ∧ u = s))

/-- What a step of `c` can be: it runs its frame, it ends the command that has run, or it does nothing. -/
inductive StepOutcome (c : Chan) (s t : State) : Prop
  | runs (u : State) (hbegin : Begins c s u) (hout : CommandOutcome c u (u.wantsLease c) t)
  | ends (resp : Option Frame) (release : Bool) (hphase : (s.front c).phase = .ran resp release)
    (hend : s.endCommand c = .next t)
  | rests (hphase : (s.front c).phase.hasRun = false) (heq : t = s)

theorem channelStep_outcome {c : Chan} {s t : State} (h : channelStep c s = .next t) : StepOutcome c s t := by
  unfold channelStep at h
  split at h
  · rename_i f hphase hrx
    split at h
    · exact .rests (by rw [hphase]; rfl) (Host.Outcome.next.inj h).symm
    · rename_i hbusy
      refine .runs (s.takeFrame c) ⟨by simp [hrx], .inl ⟨hphase, by simpa using hbusy, rfl⟩⟩ (runFrame_outcome ?_ h)
      simp [State.takeFrame, hrx]
  · rename_i f hphase hrx
    exact .runs s ⟨by simp [hrx], .inr ⟨hphase, rfl⟩⟩ (runFrame_outcome hrx h)
  · rename_i resp release hphase
    exact .ends resp release hphase h
  all_goals
    refine .rests ?_ (Host.Outcome.next.inj h).symm
    simp_all only [Phase.hasRun]

/-- The end of a command that has run, as the state after its last bus events and its release, and its front end. -/
theorem State.endCommand_next {c : Chan} {s t : State} {resp : Option Frame} {release : Bool}
    (hphase : (s.front c).phase = .ran resp release) (h : s.endCommand c = .next t) :
    ∃ v, t = v.setFront c ((v.front c).ended resp) ∧
      ((release = false ∧ v = s.finishBus c) ∨
        (release = true ∧ s.owner = some c ∧
          v = State.arbitrate { ((s.finishBus c).closeCommand c).logEv (.release c) with owner := none })) := by
  cases release with
  | false =>
    rw [State.endCommand_keeping hphase] at h
    refine ⟨s.finishBus c, ?_, .inl ⟨rfl, rfl⟩⟩
    rw [(s.finishBus_bus c).front]
    exact (Host.Outcome.next.inj h).symm
  | true =>
    rw [State.endCommand_releasing hphase] at h
    obtain ⟨v, hv, ht⟩ := andThen_next.mp h
    obtain ⟨howner, hveq⟩ := State.release_next.mp hv
    rw [State.closeCommand_eq] at howner
    exact ⟨v, (Host.Outcome.next.inj ht).symm, .inr ⟨rfl, (s.finishBus_bus c).owner ▸ howner, hveq⟩⟩

/-- After its command has ended a channel is idle. -/
theorem State.endCommand_phase {c : Chan} {s t : State} {resp : Option Frame} {release : Bool}
    (hphase : (s.front c).phase = .ran resp release) (h : s.endCommand c = .next t) : (t.front c).phase = .idle := by
  obtain ⟨v, rfl, -⟩ := State.endCommand_next hphase h
  rw [State.setFront_front_self]
  rfl

/-- Taking the frame touches nothing that holding back looks at. -/
theorem State.holdBack_begins {c : Chan} {s u : State} (h : Begins c s u) (hold : Nat) (t : State) :
    s.holdBack c hold t = u.holdBack c hold t := by
  obtain ⟨-, ⟨-, -, rfl⟩ | ⟨-, rfl⟩⟩ := h
  · simp [State.holdBack, newEvents, State.takeFrame]
  · rfl

/-- What a paced step of `c` can be: only of a command that runs in it events are held back. -/
inductive PacedOutcome (c : Chan) (hold : Nat) (s : State) : State → Prop
  | runs {u t : State} (hbegin : Begins c s u) (hout : CommandOutcome c u (u.wantsLease c) t) :
    PacedOutcome c hold s (u.holdBack c hold t)
  | ends {t : State} (resp : Option Frame) (release : Bool) (hphase : (s.front c).phase = .ran resp release)
    (hend : s.endCommand c = .next t) : PacedOutcome c hold s t
  | rests : PacedOutcome c hold s s

theorem pacedStep_outcome {c : Chan} {hold : Nat} {s t : State} (h : pacedStep hold c s = .next t) :
    PacedOutcome c hold s t := by
  obtain ⟨t', hstep, ht⟩ := andThen_next.mp h
  obtain rfl := Host.Outcome.next.inj ht
  cases channelStep_outcome hstep with
  | runs u hbegin hout =>
    rw [State.holdBack_begins hbegin]
    exact .runs hbegin hout
  | ends resp release hphase hend =>
    rw [State.holdBack_other (.inl (by rw [State.endCommand_phase hphase hend]; rfl))]
    exact .ends resp release hphase hend
  | rests hphase heq =>
    subst heq
    rw [State.holdBack_other (.inl hphase)]
    exact .rests

/-! ## What is left alone -/

/-- From `s` to `t` no register of another channel than `c` changes, nor a parameter, and no other channel enters
PENDING; a DAP channel leaves the registers of the bridge and BOOT_REQ (R23). -/
structure Leaves (c : Chan) (s t : State) : Prop where
  fronts : ∀ x, x ≠ c → t.front x = s.front x
  daps : ∀ d : DapCh, d.chan ≠ c → t.dap d = s.dap d
  bridge : c ≠ .ch0 → t.brTxn = s.brTxn ∧ t.brDiv = s.brDiv ∧ t.bootReq = s.bootReq
  waiters : ∀ x, x ≠ c → x ∈ t.pending → x ∈ s.pending
  cfg : t.cfg = s.cfg
  sched : t.sched = s.sched
  leaseWaits : t.leaseWaits = s.leaseWaits
  port : t.swdPort = s.swdPort

/-- As `Leaves`, but that another channel which waits may be granted the lease (R126). -/
structure Isolated (c : Chan) (s t : State) : Prop where
  fronts : ∀ x, x ≠ c → t.front x = s.front x ∨
    (x ∈ s.pending ∧ t.owner = some x ∧ t.front x = { s.front x with phase := .granted })
  daps : ∀ d : DapCh, d.chan ≠ c → t.dap d = s.dap d
  bridge : c ≠ .ch0 → t.brTxn = s.brTxn ∧ t.brDiv = s.brDiv ∧ t.bootReq = s.bootReq
  cfg : t.cfg = s.cfg
  sched : t.sched = s.sched
  leaseWaits : t.leaseWaits = s.leaseWaits
  port : t.swdPort = s.swdPort

namespace Leaves

variable {c : Chan} {s t u : State}

theorem refl (c : Chan) (s : State) : Leaves c s s :=
  ⟨fun _ _ => rfl, fun _ _ => rfl, fun _ => ⟨rfl, rfl, rfl⟩, fun _ _ => id, rfl, rfl, rfl, rfl⟩

theorem trans (h : Leaves c s t) (k : Leaves c t u) : Leaves c s u where
  fronts x hx := (k.fronts x hx).trans (h.fronts x hx)
  daps d hd := (k.daps d hd).trans (h.daps d hd)
  bridge hc := by
    obtain ⟨htxn, hdiv, hboot⟩ := h.bridge hc
    obtain ⟨ktxn, kdiv, kboot⟩ := k.bridge hc
    exact ⟨ktxn.trans htxn, kdiv.trans hdiv, kboot.trans hboot⟩
  waiters x hx := h.waiters x hx ∘ k.waiters x hx
  cfg := k.cfg.trans h.cfg
  sched := k.sched.trans h.sched
  leaseWaits := k.leaseWaits.trans h.leaseWaits
  port := k.port.trans h.port

theorem isolated (h : Leaves c s t) : Isolated c s t :=
  ⟨fun x hx => .inl (h.fronts x hx), h.daps, h.bridge, h.cfg, h.sched, h.leaseWaits, h.port⟩

theorem trans_isolated (h : Leaves c s t) (k : Isolated c t u) : Isolated c s u where
  fronts x hx := by
    rw [← h.fronts x hx]
    exact (k.fronts x hx).imp_right fun ⟨hwaits, hrest⟩ => ⟨h.waiters x hx hwaits, hrest⟩
  daps d hd := (k.daps d hd).trans (h.daps d hd)
  bridge hc := by
    obtain ⟨htxn, hdiv, hboot⟩ := h.bridge hc
    obtain ⟨ktxn, kdiv, kboot⟩ := k.bridge hc
    exact ⟨ktxn.trans htxn, kdiv.trans hdiv, kboot.trans hboot⟩
  cfg := k.cfg.trans h.cfg
  sched := k.sched.trans h.sched
  leaseWaits := k.leaseWaits.trans h.leaseWaits
  port := k.port.trans h.port

theorem setFront (c : Chan) (s : State) (f : Front) : Leaves c s (s.setFront c f) :=
  ⟨fun _ hx => State.setFront_front_ne s f hx, fun _ _ => by simp, fun _ => by simp, fun _ _ => by simp, by simp,
    by simp, by simp, by simp⟩

theorem setPhase (c : Chan) (s : State) (p : Phase) : Leaves c s (s.setPhase c p) := setFront c s _

theorem respond (c : Chan) (s : State) (r : Option Frame) (b : Bool) : Leaves c s (s.respond c r b) := setFront c s _

theorem ofBus (h : SameButBus s t) : Leaves c s t :=
  ⟨fun x _ => h.front x, fun d _ => h.dap d, fun _ => by rw [h]; exact ⟨rfl, rfl, rfl⟩, fun _ _ => by rw [h]; exact id,
    by rw [h], by rw [h], by rw [h], by rw [h]⟩

theorem ofAction (h : BusAction c s t) : Leaves c s t :=
  ⟨fun x _ => h.front x, h.otherDap, fun hc => ⟨h.otherTxn hc, by rw [h.frame], by rw [h.frame]⟩,
    fun _ _ => by rw [h.frame]; exact id, by rw [h.frame], by rw [h.frame], by rw [h.frame],
    by rw [h.frame]⟩

theorem ofOffBus (h : OffBus c s t) : Leaves c s t :=
  ⟨fun x _ => by rw [h.frame]; cases x <;> rfl, fun d _ => by rw [h.frame]; cases d <;> rfl,
    fun hc => ⟨by rw [h.frame], h.otherDiv hc, by rw [h.frame]⟩, fun _ _ => by rw [h.frame]; exact id, by rw [h.frame],
    by rw [h.frame], by rw [h.frame], by rw [h.frame]⟩

theorem grant (c : Chan) (s : State) : Leaves c s (s.grant c) where
  fronts _ hx := State.grant_front_ne s hx
  daps d _ := by rw [State.grant_eq, State.setPhase_dap]; cases d <;> rfl
  bridge _ := by rw [State.grant_eq]; simp
  waiters x _ := by rw [State.grant_pending]; exact fun h => (List.mem_filter.mp h).1
  cfg := by rw [State.grant_eq]; simp
  sched := by rw [State.grant_eq]; simp
  leaseWaits := by rw [State.grant_eq]; simp
  port := by rw [State.grant_eq]; simp

theorem ofStart {lease : Bool} (h : BusStart c s lease t) : Leaves c s t := by
  cases h with
  | inTransaction => exact .refl c s
  | granted => exact .refl c s
  | grants => exact .grant c s

theorem closeCommand (c : Chan) (s : State) : Leaves c s (s.closeCommand c) where
  fronts x _ := by rw [State.closeCommand_eq]; cases x <;> rfl
  daps d hd := by rw [State.closeCommand_dap, if_neg hd]
  bridge _ := by rw [State.closeCommand_eq]; exact ⟨rfl, rfl, rfl⟩
  waiters _ _ := by rw [State.closeCommand_eq]; exact id
  cfg := by rw [State.closeCommand_eq]
  sched := by rw [State.closeCommand_eq]
  leaseWaits := by rw [State.closeCommand_eq]
  port := by rw [State.closeCommand_eq]

end Leaves

theorem Isolated.trans_leaves {c : Chan} {s t u : State} (h : Isolated c s t) (k : Leaves c t u)
    (howner : u.owner = t.owner) : Isolated c s u where
  fronts x hx := by rw [k.fronts x hx, howner]; exact h.fronts x hx
  daps d hd := (k.daps d hd).trans (h.daps d hd)
  bridge hc := by
    obtain ⟨htxn, hdiv, hboot⟩ := h.bridge hc
    obtain ⟨ktxn, kdiv, kboot⟩ := k.bridge hc
    exact ⟨ktxn.trans htxn, kdiv.trans hdiv, kboot.trans hboot⟩
  cfg := k.cfg.trans h.cfg
  sched := k.sched.trans h.sched
  leaseWaits := k.leaseWaits.trans h.leaseWaits
  port := k.port.trans h.port

/-- Arbitration grants a channel that waits, and touches no other (R125, R126). -/
theorem State.arbitrate_isolated (c : Chan) (s : State) : Isolated c s s.arbitrate := by
  obtain ⟨x, xs, -, hpending, hgrant⟩ | ⟨-, hsame⟩ := s.arbitrate_cases
  · rw [hgrant]
    refine ⟨fun y _ => ?_, fun d _ => ?_, fun _ => ?_, ?_, ?_, ?_, ?_⟩
    · by_cases hyx : y = x
      · subst hyx
        exact .inr ⟨by simp [hpending], State.grant_owner s y, State.grant_front_self s y⟩
      · exact .inl (State.grant_front_ne s hyx)
    all_goals rw [State.grant_eq]
    · rw [State.setPhase_dap]; cases d <;> rfl
    all_goals simp
  · rw [hsame]
    exact (Leaves.refl c s).isolated

theorem State.acquire_isolated (c : Chan) (s : State) : Isolated c s (s.acquire c) := by
  have hask : Leaves c s (State.setPhase { s with pending := s.pending ++ [c] } c .waiting) := by
    have happend : Leaves c s { s with pending := s.pending ++ [c] } :=
      ⟨fun x _ => by cases x <;> rfl, fun d _ => by cases d <;> rfl, fun _ => ⟨rfl, rfl, rfl⟩,
        fun x hx h => by simpa [hx] using h, rfl, rfl, rfl, rfl⟩
    exact happend.trans (.setPhase c _ _)
  exact hask.trans_isolated (State.arbitrate_isolated c _)

/-- A command changes no register of another channel. -/
theorem CommandOutcome.isolated {c : Chan} {s t : State} {lease : Bool} (h : CommandOutcome c s lease t) :
    Isolated c s t := by
  cases h with
  | answers resp _ hoff => exact ((Leaves.ofOffBus hoff).trans (.respond c _ _ _)).isolated
  | waits => exact State.acquire_isolated c s
  | runs resp release hstart hrun =>
    exact (((Leaves.ofStart hstart).trans (.ofAction hrun.action)).trans (.respond c _ _ _)).isolated
  | @boots u hc hstart =>
    subst hc
    refine ((Leaves.ofStart hstart).trans ?_).isolated
    have hne (d : DapCh) : d.chan ≠ .ch0 := by cases d <;> simp [DapCh.chan]
    rw [bootTrigger_eq hstart.owner]
    refine ⟨fun x hx => ?_, fun d _ => ?_, fun h => absurd rfl h, fun _ _ => id, rfl, rfl, rfl, rfl⟩
    · cases x <;> first | rfl | exact absurd rfl hx
    · cases d <;> rfl

/-- The end of a command changes no register of another channel, but that the release may grant the lease. -/
theorem State.endCommand_isolated {c : Chan} {s t : State} {resp : Option Frame} {release : Bool}
    (hphase : (s.front c).phase = .ran resp release) (h : s.endCommand c = .next t) : Isolated c s t := by
  obtain ⟨v, rfl, ⟨-, rfl⟩ | ⟨-, -, rfl⟩⟩ := State.endCommand_next hphase h
  · exact ((Leaves.ofBus (s.finishBus_bus c)).trans (.setFront c _ _)).isolated
  · have hclose := (Leaves.ofBus (c := c) (s.finishBus_bus c)).trans (.closeCommand c _)
    have hfree (w : State) : Leaves c w { w.logEv (.release c) with owner := none } :=
      ⟨fun x _ => by cases x <;> rfl, fun d _ => by cases d <;> rfl, fun _ => ⟨rfl, rfl, rfl⟩, fun _ _ => id, rfl, rfl, rfl, rfl⟩
    exact ((hclose.trans (hfree _)).trans_isolated (State.arbitrate_isolated c _)).trans_leaves (.setFront c _ _)
      (State.setFront_owner ..)

/-! ## The outputs of the bridge -/

/-- No event of a DAP channel's lease writes CS_N or POWER_EN (R156). -/
theorem levelAfter_within {c : Chan} {k : EventKind} (hc : c ≠ .ch0) (hk : k.within c = true) {p : OutPin}
    (hp : p ≠ .resetN) (v : Bool) : p.levelAfter v k = v := by
  cases k with
  | pin q l => cases q <;> cases p <;> simp_all [EventKind.within, OutPin.levelAfter, outPin]
  | _ => rfl

/-- A command of a DAP channel, and any first part of its events, leaves CS_N and POWER_EN. -/
theorem levelOf_command {c : Chan} (hc : c ≠ .ch0) {p : OutPin} (hp : p ≠ .resetN) {es now later : List Event}
    {ks : List EventKind} {o : Option Chan} (hgrant : IsGrant es) (hks : ∀ k ∈ ks, k.within c = true)
    (hsplit : es ++ ks.map (fun k => ⟨o, k⟩) = now ++ later) (v : Bool) : p.levelOf (now.map Event.kind) v = v := by
  refine p.levelOf_of_silent (fun k hk v => ?_) v
  obtain ⟨e, he, rfl⟩ := List.mem_map.mp hk
  have he' : e ∈ es ++ ks.map fun k => ⟨o, k⟩ := hsplit ▸ List.mem_append_left later he
  obtain hes | hks' := List.mem_append.mp he'
  · obtain rfl | ⟨x, rfl⟩ := hgrant
    · simp at hes
    · obtain rfl := List.mem_singleton.mp hes
      rfl
  · obtain ⟨l, hl, rfl⟩ := List.mem_map.mp hks'
    exact levelAfter_within hc (hks l hl) hp v

theorem State.arbitrate_outReg (s : State) (p : OutPin) : s.arbitrate.outReg p = s.outReg p := by
  obtain ⟨x, xs, -, -, hgrant⟩ | ⟨-, hsame⟩ := s.arbitrate_cases
  · rw [hgrant]; cases x <;> cases p <;> rfl
  · rw [hsame]

theorem State.setFront_outReg (s : State) (c : Chan) (f : Front) (p : OutPin) :
    (s.setFront c f).outReg p = s.outReg p := by
  cases c <;> cases p <;> rfl

/-- The end of a command writes an output by the events that lay ahead alone (R222). -/
theorem State.endCommand_outReg {c : Chan} {s t : State} {resp : Option Frame} {release : Bool}
    (hphase : (s.front c).phase = .ran resp release) (h : s.endCommand c = .next t) (p : OutPin) :
    t.outReg p = (s.finishBus c).outReg p := by
  obtain ⟨v, rfl, ⟨-, rfl⟩ | ⟨-, -, rfl⟩⟩ := State.endCommand_next hphase h
  · exact State.setFront_outReg ..
  · rw [State.setFront_outReg, State.arbitrate_outReg, State.closeCommand_eq]
    cases p <;> rfl

/-- A step of a DAP channel leaves CS_N and POWER_EN, if no event ahead writes them. -/
theorem PacedOutcome.outReg {c : Chan} {hold : Nat} {s t : State} (h : PacedOutcome c hold s t) (hc : c ≠ .ch0)
    {p : OutPin} (hp : p ≠ .resetN) (hahead : ∀ e ∈ s.ahead, ∀ v, p.levelAfter v e.kind = v) :
    t.outReg p = s.outReg p := by
  cases h with
  | rests => rfl
  | @runs u t hbegin hout =>
    have hu : u.ahead = s.ahead ∧ u.outReg p = s.outReg p := by
      obtain ⟨-, ⟨-, -, rfl⟩ | ⟨-, rfl⟩⟩ := hbegin
      · exact ⟨State.setFront_ahead .., State.setFront_outReg ..⟩
      · exact ⟨rfl, rfl⟩
    obtain ⟨es, ks, hgrant, hks, hrec⟩ := hout.records
    rw [← hu.2]
    by_cases hua : u.ahead = []
    · obtain ⟨now, later, hheld⟩ := State.holdBack_held c hold hrec hua
      rw [hheld.outputs, levelOf_command hc hp hgrant hks hheld.split]
    · rw [State.holdBack_other (.inr (.inr (by rw [hrec.2.1]; exact hua))), hrec.2.2]
      exact levelOf_command hc hp hgrant hks (List.append_nil _).symm _
  | ends resp release hphase hend =>
    rw [State.endCommand_outReg hphase hend, State.finishBus]
    split
    · rw [State.settled_outReg]
      refine p.levelOf_of_silent (fun k hk v => ?_) _
      obtain ⟨e, he, rfl⟩ := List.mem_map.mp hk
      exact hahead e he v
    · rfl

theorem PacedOutcome.isolated {c : Chan} {hold : Nat} {s t : State} (h : PacedOutcome c hold s t) :
    Isolated c s t := by
  cases h with
  | rests => exact (Leaves.refl c s).isolated
  | @runs u t hbegin hout =>
    have hbus := u.holdBack_bus t c hold
    have hrun := hout.isolated.trans_leaves (.ofBus hbus) hbus.owner
    obtain ⟨-, ⟨-, -, rfl⟩ | ⟨-, rfl⟩⟩ := hbegin
    · exact (Leaves.setFront c s _).trans_isolated hrun
    · exact hrun
  | ends resp release hphase hend => exact State.endCommand_isolated hphase hend

/-- Settles O25, from what a step can be and what each part of it leaves alone. -/
theorem channelIsolation : Obligations.ChannelIsolation := by
  intro s t c hold h
  have hout := pacedStep_outcome h
  obtain ⟨hfronts, hdaps, hbridge, hcfg, hsched, -, -⟩ := hout.isolated
  refine ⟨hfronts, hdaps, fun hc => ?_, hcfg, hsched⟩
  obtain ⟨htxn, hdiv, hboot⟩ := hbridge hc
  refine ⟨htxn, hdiv, hboot, fun hahead => ⟨?_, ?_⟩⟩
  · refine hout.outReg (p := .powerEn) hc nofun fun e he v => ?_
    obtain ⟨tag, kind⟩ := e
    cases kind with
    | pin q l => exact if_neg fun hq => (hahead _ he l).2 (by rw [hq]; rfl)
    | _ => rfl
  · refine hout.outReg (p := .csN) hc nofun fun e he v => ?_
    obtain ⟨tag, kind⟩ := e
    cases kind with
    | pin q l => exact if_neg fun hq => (hahead _ he l).1 (by rw [hq]; rfl)
    | _ => rfl

end Sys2Proof.Machine
end

section
/-! SUPPORT. The lease as a small machine of its own: OWNER, PENDING, the phases, BR_TXN and BOOT_REQ, and how each kind
of step moves them (R24 to R26, R37, R124 to R131). -/

namespace Sys2Proof.Machine

/-- The part of the invariant about the lease: who owns it and why, and who waits (R25, R37, R130). -/
structure LeaseInv (owner : Option Chan) (pending : List Chan) (phase : Chan → Phase) (txn boot : Bool) : Prop where
  nodup : pending.Nodup
  ownerNot : ∀ c, owner = some c → c ∉ pending
  free : owner = none → pending = []
  waiting : ∀ c, c ∈ pending ↔ phase c = .waiting
  holder : ∀ c, (phase c).holdsLease = true → owner = some c
  txnOwner : txn = true → owner = some .ch0
  txnFrame : txn = true → (phase .ch0).holdsLease = false
  why : ∀ c, owner = some c → boot = true ∨ (phase c).holdsLease = true ∨ (c = .ch0 ∧ txn = true)

/-- A phase in which a channel neither waits for a lease nor holds one for its frame. -/
def Phase.quiet : Phase → Bool
  | .idle => true
  | .ran _ release => !release
  | .waiting | .granted => false

namespace LeaseInv

variable {owner : Option Chan} {pending : List Chan} {phase : Chan → Phase} {txn boot : Bool}

/-- A channel without a lease of its own leaves PENDING, or stays out of it, and its phase becomes quiet: it answers
without the bus, gives up its wait, or ends a command that kept the lease. -/
theorem quiet (h : LeaseInv owner pending phase txn boot) {c : Chan} {p : Phase}
    (hold : (phase c).holdsLease = false) (hp : p.quiet = true) :
    LeaseInv owner (pending.filter (· ≠ c)) (Function.update phase c p) txn boot := by
  have hpw : p ≠ .waiting := by rintro rfl; simp [Phase.quiet] at hp
  have hph : p.holdsLease = false := by cases p <;> simp_all [Phase.quiet, Phase.holdsLease]
  have hsame (x : Chan) : (Function.update phase c p x).holdsLease = (phase x).holdsLease := by
    by_cases hx : x = c
    · subst hx; rw [Function.update_self, hph, hold]
    · rw [Function.update_of_ne hx]
  refine ⟨h.nodup.filter _, fun x hx hmem => h.ownerNot x hx (List.mem_filter.mp hmem).1,
    fun hfree => by rw [h.free hfree]; rfl, fun x => ?_, fun x hx => h.holder x (hsame x ▸ hx), h.txnOwner,
    fun ht => (hsame _).trans (h.txnFrame ht), fun x hx => by rw [hsame]; exact h.why x hx⟩
  by_cases hx : x = c
  · subst hx; simp [hpw]
  · simp [hx, h.waiting]

/-- An idle channel asks for a lease that another channel holds (R125). -/
theorem wait (h : LeaseInv owner pending phase txn boot) {c : Chan} (hidle : phase c = .idle) (howner : owner ≠ none)
    (hother : owner ≠ some c) : LeaseInv owner (pending ++ [c]) (Function.update phase c .waiting) txn boot := by
  have hout : c ∉ pending := by rw [h.waiting, hidle]; nofun
  have hsame (x : Chan) : (Function.update phase c .waiting x).holdsLease = (phase x).holdsLease := by
    by_cases hx : x = c
    · subst hx; rw [Function.update_self, hidle]; rfl
    · rw [Function.update_of_ne hx]
  refine ⟨List.nodup_append_comm.mp (List.nodup_cons.mpr ⟨hout, h.nodup⟩), fun x hx hmem => ?_,
    fun hfree => absurd hfree howner, fun x => ?_, fun x hx => h.holder x (hsame x ▸ hx), h.txnOwner,
    fun ht => (hsame _).trans (h.txnFrame ht), fun x hx => by rw [hsame]; exact h.why x hx⟩
  · obtain hold | hnew := List.mem_append.mp hmem
    · exact h.ownerNot x hx hold
    · exact hother (List.mem_singleton.mp hnew ▸ hx)
  · by_cases hx : x = c
    · subst hx; simp
    · simp [hx, h.waiting]

/-- The grant of a free lease in the step of its request (R125, R126). -/
theorem grant (h : LeaseInv none [] phase txn boot) (c : Chan) :
    LeaseInv (some c) [] (Function.update phase c .granted) txn boot := by
  have htxn : txn = false := by
    cases ht : txn with
    | false => rfl
    | true => simpa using h.txnOwner ht
  subst htxn
  refine ⟨List.nodup_nil, fun _ _ => List.not_mem_nil, nofun, fun x => ?_, fun x hx => ?_, nofun, nofun, fun x hx => ?_⟩
  · by_cases hx : x = c
    · subst hx; simp
    · simp [hx, ← h.waiting]
  · by_cases hxc : x = c
    · rw [hxc]
    · rw [Function.update_of_ne hxc] at hx
      exact absurd (h.holder x hx) nofun
  · obtain rfl := Option.some_inj.mp hx
    exact .inr (.inl (by rw [Function.update_self]; rfl))

/-- The owner's command runs to its response: a command of the bridge that keeps the lease leaves its transaction open,
and one that is to release it leaves none open (R130, R161, R163). -/
theorem run {c : Chan} (h : LeaseInv (some c) pending phase txn boot) {txn' : Bool} (resp : Option Frame)
    {release : Bool} (hkeeps : release = false → c = .ch0 ∧ txn' = true) (hends : release = true → txn' = false) :
    LeaseInv (some c) pending (Function.update phase c (.ran resp release)) txn' boot := by
  have hwaiting (x : Chan) : x ∈ pending ↔ Function.update phase c (.ran resp release) x = .waiting := by
    by_cases hx : x = c
    · subst hx; simpa using h.ownerNot x rfl
    · simp [hx, h.waiting]
  have hholder (x : Chan) (hx : (Function.update phase c (.ran resp release) x).holdsLease = true) :
      some c = some x := by
    by_cases hxc : x = c
    · rw [hxc]
    · rw [Function.update_of_ne hxc] at hx
      exact h.holder x hx
  cases release with
  | false =>
    obtain ⟨rfl, rfl⟩ := hkeeps rfl
    exact ⟨h.nodup, h.ownerNot, nofun, hwaiting, hholder, fun _ => rfl, fun _ => by rw [Function.update_self]; rfl,
      fun x hx => .inr (.inr ⟨(Option.some_inj.mp hx).symm, rfl⟩)⟩
  | true =>
    obtain rfl := hends rfl
    refine ⟨h.nodup, h.ownerNot, nofun, hwaiting, hholder, nofun, nofun, fun x hx => .inr (.inl ?_)⟩
    rw [← Option.some_inj.mp hx, Function.update_self]
    rfl

/-- BOOTLOAD leaves the lease with the bridge, which has no command any more (R167). -/
theorem boots (h : LeaseInv (some .ch0) pending phase txn boot) :
    LeaseInv (some .ch0) pending (Function.update phase .ch0 .idle) txn true := by
  refine ⟨h.nodup, h.ownerNot, nofun, fun x => ?_, fun x hx => ?_, h.txnOwner, fun _ => rfl, fun _ _ => .inl rfl⟩
  · by_cases hx : x = .ch0
    · subst hx; simpa using h.ownerNot .ch0 rfl
    · simp [hx, h.waiting]
  · by_cases hxc : x = .ch0
    · rw [hxc]
    · rw [Function.update_of_ne hxc] at hx
      exact h.holder x hx

/-- The phases after the owner's release: the first waiting channel is granted the lease (R126, R129). -/
def afterRelease (pending : List Chan) (phase : Chan → Phase) (x : Chan) : Phase :=
  if pending.head? = some x then .granted else phase x

/-- The owner releases the lease, outside any transaction, and has no command any more (R129). -/
theorem release {c : Chan} (h : LeaseInv (some c) pending phase txn boot) :
    LeaseInv pending.head? pending.tail (Function.update (afterRelease pending phase) c .idle) false boot := by
  have hc : c ∉ pending := h.ownerNot c rfl
  have hhold (x : Chan) (hx : x ≠ c) : (phase x).holdsLease = false := by
    by_contra hhold
    exact hx (Option.some_inj.mp (h.holder x (by simpa using hhold))).symm
  have hwait (x : Chan) (hx : x ≠ c) : x ∈ pending ↔ phase x = .waiting := h.waiting x
  cases pending with
  | nil =>
    refine ⟨List.nodup_nil, nofun, fun _ => rfl, fun x => ?_, fun x hx => ?_, nofun, nofun, nofun⟩
    · by_cases hxc : x = c
      · subst hxc; simp
      · simp [hxc, afterRelease, ← hwait x hxc]
    · by_cases hxc : x = c
      · subst hxc; simp [Phase.holdsLease] at hx
      · simp [hxc, afterRelease, hhold x hxc] at hx
  | cons y ys =>
    obtain ⟨hy, hys⟩ := List.nodup_cons.mp h.nodup
    have hyc : y ≠ c := fun hyc => hc (by simp [hyc])
    refine ⟨hys, fun x hx => ?_, nofun, fun x => ?_, fun x hx => ?_, nofun, nofun, fun x hx => ?_⟩
    · obtain rfl := Option.some_inj.mp hx
      exact hy
    · by_cases hxc : x = c
      · subst hxc
        simpa using fun hmem => hc (List.mem_cons_of_mem _ hmem)
      · by_cases hxy : x = y
        · subst hxy; simpa [hxc, afterRelease] using hy
        · simp [hxc, afterRelease, Ne.symm hxy, ← hwait x hxc, hxy]
    · by_cases hxc : x = c
      · subst hxc; simp [Phase.holdsLease] at hx
      · by_cases hxy : x = y
        · rw [hxy]; rfl
        · simp [hxc, afterRelease, Ne.symm hxy, hhold x hxc] at hx
    · obtain rfl := Option.some_inj.mp hx
      exact .inr (.inl (by simp [hyc, afterRelease, Phase.holdsLease]))

end LeaseInv

end Sys2Proof.Machine
end

section
/-! SUPPORT. The invariant in four parts (the lease, the waiting frames, the registers, LOG) and the front ends, and what
each kind of operation does to each part. -/

namespace Sys2Proof.Machine

/-! ## The parts -/

/-- The registers of a DAP channel while none of its commands has run (R38, R39, R44). -/
def DapRegs.AtRest (r : DapRegs) : Prop :=
  r.xferFsm = .idle ∧ r.dapState ≠ .transferInProgress ∧ r.batch = Batch.init

/-- The part of the invariant about the pins and the interpreter registers (R38, R43, R153, R210). -/
structure State.RegsInv (s : State) : Prop where
  txnPins : s.brTxn = true → s.pinMode = .spi ∧ s.sck = false
  driven : s.SwdDriven
  dapRest : ∀ d : DapCh, (s.front d.chan).phase.running = false → (s.dap d).AtRest
  turnaround : ∀ d, 1 ≤ (s.dap d).turnaround ∧ (s.dap d).turnaround ≤ 4
  port : s.swdPort = none

/-- The part of the invariant about LOG, the events ahead and CS_N (R47, R73, R134, R161). -/
structure State.LogInv (s : State) : Prop where
  csIdle : s.brTxn = false → OutPin.csN.levelOf (s.ahead.map Event.kind) s.csN = true
  leased : leasedLog s.log = some s.owner
  aheadRuns : s.ahead ≠ [] → ∃ c, s.owner = some c ∧ (s.front c).phase.hasRun = true
  aheadLeased : ∀ e ∈ s.ahead, ownerAfter s.owner e = some s.owner
  waitsPlaced : ∀ w ∈ s.leaseWaits, w.after ≤ s.log.length

/-- Only a command that takes a lease waits for one, or is granted one after a wait (R130). -/
def State.Waiters (s : State) : Prop :=
  ∀ c, (s.front c).phase = .waiting ∨ (s.front c).phase = .granted → s.wantsLease c = true

/-- The part of the invariant about the lease, for a state. -/
abbrev State.LeaseOk (s : State) : Prop :=
  LeaseInv s.owner s.pending (fun c => (s.front c).phase) s.brTxn s.bootReq

/-- The invariant but for the front ends. -/
structure State.Core (s : State) : Prop where
  lease : s.LeaseOk
  waiters : s.Waiters
  regs : s.RegsInv
  logs : s.LogInv

/-- The part of the invariant about one front end (R21, R22, R131). -/
structure Front.WellFormed (f : Front) : Prop where
  busy : f.busy = false ↔ f.phase = .idle
  frame : f.busy = true → f.rx ≠ none
  detached : f.link = .detached → f.rx = none ∧ f.phase = .idle

theorem State.inv_iff (s : State) : s.Inv ↔ s.Core ∧ ∀ c, (s.front c).WellFormed := by
  have hcs : OutPin.csN.levelOf (s.ahead.map Event.kind) s.csN = s.settled.csN := (s.settled_outReg .csN).symm
  constructor
  · intro h
    refine ⟨⟨⟨h.pendingNodup, h.ownerNotPending, h.freeNoneWaiting, h.waitingIff, h.holderOwns, h.txnOwns,
      h.txnNoFrameLease, h.ownerWhy⟩, h.waiterWants, ⟨h.txnPins, h.swdDriven, h.dapRest, h.turnaroundRange, h.portEmpty⟩,
      ⟨fun ht => hcs.trans (h.csIdle ht), h.logLeased, h.aheadRuns, h.aheadLeased, h.waitsPlaced⟩⟩,
      fun c => ⟨h.busyIff c, h.busyFrame c, h.detachedEmpty c⟩⟩
  · rintro ⟨⟨hlease, hwaiters, hregs, hlogs⟩, hfronts⟩
    exact
      { pendingNodup := hlease.nodup
        ownerNotPending := hlease.ownerNot
        freeNoneWaiting := hlease.free
        waitingIff := hlease.waiting
        busyIff := fun c => (hfronts c).busy
        busyFrame := fun c => (hfronts c).frame
        detachedEmpty := fun c => (hfronts c).detached
        waiterWants := hwaiters
        holderOwns := hlease.holder
        txnOwns := hlease.txnOwner
        txnNoFrameLease := hlease.txnFrame
        ownerWhy := hlease.why
        txnPins := hregs.txnPins
        csIdle := fun ht => hcs.symm.trans (hlogs.csIdle ht)
        swdDriven := hregs.driven
        dapRest := hregs.dapRest
        turnaroundRange := hregs.turnaround
        portEmpty := hregs.port
        logLeased := hlogs.leased
        aheadRuns := hlogs.aheadRuns
        aheadLeased := hlogs.aheadLeased
        waitsPlaced := hlogs.waitsPlaced }

/-! ## States that agree on a part -/

/-- The phases after a step that changes the front end of `c` alone. -/
theorem phases_update {c : Chan} {s t : State} (h : ∀ x, x ≠ c → t.front x = s.front x) :
    (fun x => (t.front x).phase) = Function.update (fun x => (s.front x).phase) c (t.front c).phase := by
  funext x
  by_cases hx : x = c
  · subst hx; simp
  · simp [hx, h x hx]

/-- Registers that agree, with no more commands run under a lease than before. -/
theorem State.RegsInv.congr {s t : State} (h : s.RegsInv) (htxn : t.brTxn = s.brTxn) (hmode : t.pinMode = s.pinMode)
    (hsck : t.sck = s.sck) (hoe : t.swdioOe = s.swdioOe) (hport : t.swdPort = s.swdPort) (hdap : ∀ d, t.dap d = s.dap d)
    (hrun : ∀ c, (t.front c).phase.running = false → (s.front c).phase.running = false) : t.RegsInv where
  txnPins := by rw [htxn, hmode, hsck]; exact h.txnPins
  driven := by rw [State.SwdDriven, hmode, hoe]; exact h.driven
  dapRest d hd := by rw [hdap]; exact h.dapRest d (hrun _ hd)
  turnaround d := by rw [hdap]; exact h.turnaround d
  port := hport.trans h.port

/-- Logs that agree, while the owner's command that has run still stands where events lie ahead. -/
theorem State.LogInv.congr {s t : State} (h : s.LogInv) (htxn : t.brTxn = s.brTxn) (hcs : t.csN = s.csN)
    (hlog : t.log = s.log) (hahead : t.ahead = s.ahead) (howner : t.owner = s.owner)
    (hrun : ∀ c, s.ahead ≠ [] → s.owner = some c → (s.front c).phase.hasRun = true → (t.front c).phase.hasRun = true)
    (hwaits : ∀ w ∈ t.leaseWaits, w.after ≤ s.log.length) : t.LogInv where
  csIdle := by rw [htxn, hahead, hcs]; exact h.csIdle
  leased := by rw [hlog, howner]; exact h.leased
  aheadRuns hne := by
    rw [hahead] at hne
    obtain ⟨c, hc, hphase⟩ := h.aheadRuns hne
    exact ⟨c, howner.trans hc, hrun c hne hc hphase⟩
  aheadLeased := by rw [hahead, howner]; exact h.aheadLeased
  waitsPlaced := by rw [hlog]; exact hwaits

/-- With no event ahead, LOG alone matters. -/
theorem State.LogInv.ofNoneAhead {s : State} (hahead : s.ahead = []) (hcs : s.brTxn = false → s.csN = true)
    (hleased : leasedLog s.log = some s.owner) (hwaits : ∀ w ∈ s.leaseWaits, w.after ≤ s.log.length) : s.LogInv where
  csIdle := by rw [hahead]; exact hcs
  leased := hleased
  aheadRuns h := absurd hahead h
  aheadLeased := by rw [hahead]; nofun
  waitsPlaced := hwaits

/-- A channel that owns the lease and has run no command has no event ahead. -/
theorem State.LogInv.noneAhead {s : State} (h : s.LogInv) {c : Chan} (howner : s.owner = some c)
    (hphase : (s.front c).phase.hasRun = false) : s.ahead = [] := by
  by_contra hne
  obtain ⟨x, hx, hrun⟩ := h.aheadRuns hne
  obtain rfl := Option.some_inj.mp (howner.symm.trans hx)
  simp [hphase] at hrun

theorem State.LogInv.noneAhead_free {s : State} (h : s.LogInv) (howner : s.owner = none) : s.ahead = [] := by
  by_contra hne
  obtain ⟨x, hx, -⟩ := h.aheadRuns hne
  simp [howner] at hx

/-- What a frame in a slot asks for depends on the frame, the parameters and, on the bridge, its transaction. -/
theorem State.wantsLease_congr {s t : State} {c : Chan} (hrx : (t.front c).rx = (s.front c).rx) (hcfg : t.cfg = s.cfg)
    (htxn : c = .ch0 → t.brTxn = s.brTxn) : t.wantsLease c = s.wantsLease c := by
  simp only [State.wantsLease, hrx, hcfg]
  by_cases hc : c = .ch0
  · rw [htxn hc]
  · have hbeq : (c == Chan.ch0) = false := by simpa using hc
    simp only [hbeq, Bool.false_and]

/-- A step of `c` leaves the waiting frames of the other channels. -/
theorem State.Waiters.isolated {c : Chan} {s t : State} (h : s.Waiters) (hlease : s.LeaseOk) (hiso : Isolated c s t)
    (hc : (t.front c).phase = .waiting ∨ (t.front c).phase = .granted → t.wantsLease c = true) : t.Waiters := by
  intro x hx
  by_cases hxc : x = c
  · subst hxc; exact hc hx
  · have htxn (hx0 : x = .ch0) : t.brTxn = s.brTxn := (hiso.bridge fun hc0 => hxc (hx0.trans hc0.symm)).1
    obtain heq | ⟨hwaits, -, heq⟩ := hiso.fronts x hxc
    · rw [State.wantsLease_congr (by rw [heq]) hiso.cfg htxn]
      exact h x (heq ▸ hx)
    · rw [State.wantsLease_congr (by rw [heq]) hiso.cfg htxn]
      exact h x (.inl ((hlease.waiting x).mp hwaits))

/-- A step of `c` leaves the other front ends well formed. -/
theorem Isolated.wellFormed {c : Chan} {s t : State} (hiso : Isolated c s t) (hlease : s.LeaseOk)
    (h : ∀ x, x ≠ c → (s.front x).WellFormed) : ∀ x, x ≠ c → (t.front x).WellFormed := by
  intro x hx
  obtain heq | ⟨hwaits, -, heq⟩ := hiso.fronts x hx
  · rw [heq]; exact h x hx
  · have hphase : (s.front x).phase = .waiting := (hlease.waiting x).mp hwaits
    have hwf := h x hx
    rw [heq]
    refine ⟨⟨fun hb => ?_, nofun⟩, hwf.frame, fun hl => ?_⟩
    · simpa [hphase] using hwf.busy.mp hb
    · simpa [hphase] using (hwf.detached hl).2

/-! ## Front ends and the environment -/

/-- Writing a front end with its phase and, while it counts, its frame as they were. -/
theorem State.Core.setFront {s : State} (h : s.Core) {c : Chan} {f : Front} (hphase : f.phase = (s.front c).phase)
    (hrx : f.phase = .waiting ∨ f.phase = .granted → f.rx = (s.front c).rx) : (s.setFront c f).Core := by
  have hphases (x : Chan) : ((s.setFront c f).front x).phase = (s.front x).phase := by
    by_cases hx : x = c
    · subst hx; rw [State.setFront_front_self, hphase]
    · rw [State.setFront_front_ne s f hx]
  refine ⟨?_, ?_, ?_, ?_⟩
  · simpa only [State.LeaseOk, hphases, State.setFront_owner, State.setFront_pending, State.setFront_brTxn,
      State.setFront_bootReq] using h.lease
  · refine h.waiters.isolated h.lease (Leaves.setFront c s f).isolated fun hw => ?_
    rw [State.setFront_front_self] at hw
    refine (State.wantsLease_congr (s := s) ?_ (by simp) (by simp)).trans (h.waiters c (hphase ▸ hw))
    rw [State.setFront_front_self]
    exact hrx hw
  · exact h.regs.congr (by simp) (by simp) (by simp) (by simp) (by simp) (by simp) fun x hx => hphases x ▸ hx
  · exact h.logs.congr (by simp) (by simp) (by simp) (by simp) (by simp) (fun x _ _ hx => (hphases x).symm ▸ hx)
      (by simpa using h.logs.waitsPlaced)

@[simp] theorem State.front_environment (s : State) (dr : Draws) (ms : List Move) (c : Chan) :
    State.front { s with draws := dr, sched := ms } c = s.front c := by
  cases c <;> rfl

/-- Draws and moves to come are no part of the invariant. -/
theorem State.Core.environment {s : State} (h : s.Core) (dr : Draws) (ms : List Move) :
    State.Core { s with draws := dr, sched := ms } := by
  have hfront := State.front_environment s dr ms
  refine ⟨?_, fun x hx => ?_, ?_, ?_⟩
  · simpa only [State.LeaseOk, hfront] using h.lease
  · rw [hfront] at hx
    exact (State.wantsLease_congr (by rw [hfront]) rfl fun _ => rfl).trans (h.waiters x hx)
  · exact h.regs.congr rfl rfl rfl rfl rfl (fun d => by cases d <;> rfl) fun x hx => hfront x ▸ hx
  · exact h.logs.congr rfl rfl rfl rfl rfl (fun x _ _ hx => (hfront x).symm ▸ hx) h.logs.waitsPlaced

/-! ## The Pin/Bus Controller -/

/-- Executing events ahead keeps the invariant: they go on in LOG where they stood ahead. -/
theorem State.Core.playEvents {s : State} (h : s.Core) (n : Nat) : (playEvents n s).Core := by
  obtain ⟨hbus, hlog, hahead⟩ := playEvents_spec n s
  have hout := playEvents_outReg n s .csN
  generalize Machine.playEvents n s = t at hbus hlog hahead hout ⊢
  have hleased (es : List Event) (hes : ∀ e ∈ es, ownerAfter s.owner e = some s.owner) :
      leasedLog (es.reverse ++ s.log) = some s.owner := by
    induction es using List.reverseRecOn with
    | nil => exact h.logs.leased
    | append_singleton es e ih =>
      rw [List.reverse_append]
      exact leasedLog_cons.mpr ⟨s.owner, ih fun e he => hes e (List.mem_append_left _ he), hes e (by simp)⟩
  have hphases : (fun x => (t.front x).phase) = fun x => (s.front x).phase := by funext x; rw [hbus.front]
  refine ⟨?_, ?_, ?_, ?_⟩
  · rw [State.LeaseOk, hphases, hbus.owner, hbus.pending]
    rw [hbus]
    exact h.lease
  · refine h.waiters.isolated (c := .ch0) h.lease (Leaves.ofBus hbus).isolated fun hw => ?_
    rw [State.wantsLease_congr (s := s) (by rw [hbus.front]) (by rw [hbus]) fun _ => by rw [hbus]]
    exact h.waiters .ch0 (hbus.front .ch0 ▸ hw)
  · refine h.regs.congr ?_ ?_ ?_ ?_ ?_ hbus.dap fun x hx => hbus.front x ▸ hx
    all_goals rw [hbus]
  · refine ⟨fun ht => ?_, ?_, fun hne => ?_, fun e he => ?_, fun w hw => ?_⟩
    · have hcs : t.csN = _ := hout
      rw [hahead, hcs, ← OutPin.levelOf_append, ← List.map_append, List.take_append_drop]
      exact h.logs.csIdle (by rw [hbus] at ht; exact ht)
    · rw [hlog, hbus.owner]
      exact hleased _ fun e he => h.logs.aheadLeased e (List.mem_of_mem_take he)
    · obtain ⟨c, hc, hrun⟩ := h.logs.aheadRuns fun hnil => hne (by rw [hahead, hnil]; simp)
      exact ⟨c, hbus.owner.trans hc, by rw [hbus.front]; exact hrun⟩
    · rw [hahead] at he
      rw [hbus.owner]
      exact h.logs.aheadLeased e (List.mem_of_mem_drop he)
    · rw [hbus] at hw
      rw [hlog, List.length_append]
      exact (h.logs.waitsPlaced w hw).trans (Nat.le_add_left ..)

/-- Before a command ends its events ahead are executed, and none of its own are left. -/
theorem State.Core.finishBus {s : State} (h : s.Core) (c : Chan) :
    (s.finishBus c).Core ∧ (s.owner = some c → (s.finishBus c).ahead = []) := by
  refine ⟨?_, fun howner => ((s.finishBus_logs c).1 howner).2⟩
  unfold State.finishBus
  split
  · exact h.playEvents _
  · exact h

/-! ## A channel without a lease of its own -/

/-- A channel that holds no lease for its frame has run no command under one. -/
theorem Phase.running_of_holdsLease {p : Phase} (h : p.holdsLease = false) : p.running = false := by
  cases p with
  | ran resp release => exact h
  | _ => rfl

/-- `c` leaves PENDING, or stays out of it, and its phase becomes quiet; nothing else of the block changes but BR_DIV. -/
theorem State.Core.quiet {s t : State} {c : Chan} (h : s.Core)
    (heq : t = { s with
      front0 := t.front0, front1 := t.front1, front2 := t.front2, pending := s.pending.filter (· ≠ c)
      brDiv := t.brDiv, draws := t.draws, leaseWaits := t.leaseWaits })
    (hfronts : ∀ x, x ≠ c → t.front x = s.front x) (hold : (s.front c).phase.holdsLease = false)
    (hphase : (t.front c).phase.quiet = true)
    (hahead : s.owner = some c → s.ahead ≠ [] → (t.front c).phase.hasRun = true)
    (hwaits : ∀ w ∈ t.leaseWaits, w.after ≤ s.log.length) : t.Core := by
  have hne : ¬((t.front c).phase = .waiting ∨ (t.front c).phase = .granted) := by
    rintro (hw | hw) <;> simp [hw, Phase.quiet] at hphase
  have hrun := Phase.running_of_holdsLease hold
  refine ⟨?_, fun x hx => ?_, ?_, ?_⟩
  · have hlease := h.lease.quiet hold hphase
    have howner : t.owner = s.owner := by rw [heq]
    have hpending : t.pending = s.pending.filter (· ≠ c) := by rw [heq]
    have htxn : t.brTxn = s.brTxn := by rw [heq]
    have hboot : t.bootReq = s.bootReq := by rw [heq]
    rw [State.LeaseOk, phases_update hfronts, howner, hpending, htxn, hboot]
    exact hlease
  · by_cases hxc : x = c
    · subst hxc; exact absurd hx hne
    · rw [State.wantsLease_congr (s := s) (by rw [hfronts x hxc]) (by rw [heq]) fun _ => by rw [heq]]
      exact h.waiters x (hfronts x hxc ▸ hx)
  · refine h.regs.congr ?_ ?_ ?_ ?_ ?_ (fun d => ?_) fun x hx => ?_
    case refine_7 =>
      by_cases hxc : x = c
      · rw [hxc]; exact hrun
      · exact hfronts x hxc ▸ hx
    all_goals rw [heq]
    cases d <;> rfl
  · refine h.logs.congr ?_ ?_ ?_ ?_ ?_ (fun x hsome hx hran => ?_) hwaits
    case refine_6 =>
      by_cases hxc : x = c
      · subst hxc; exact hahead hx hsome
      · rw [hfronts x hxc]; exact hran
    all_goals rw [heq]

end Sys2Proof.Machine
end

section
/-! SUPPORT. Every command, every held-back event, every end of a command and every release keeps the invariant. -/

namespace Sys2Proof.Machine

/-! ## Starting under the lease -/

/-- A state in which `c` owns the lease and may start a bus action. -/
structure OnBus (c : Chan) (s : State) : Prop where
  core : s.Core
  owner : s.owner = some c
  noneAhead : s.ahead = []

/-- The grant in the step of the request leads to a state of the invariant (R125, R126). -/
theorem State.Core.grant {s : State} {c : Chan} (h : s.Core) (hfree : s.Free) (hwants : s.wantsLease c = true) :
    OnBus c (s.grant c) := by
  obtain ⟨howner, hpending⟩ := hfree
  have hahead := h.logs.noneAhead_free howner
  have hfronts (x : Chan) (hx : x ≠ c) : (s.grant c).front x = s.front x := State.grant_front_ne s hx
  have hself := State.grant_front_self s c
  have hnone (x : Chan) : (s.front x).phase.running = false := by
    refine Phase.running_of_holdsLease ?_
    by_contra hhold
    simpa [howner] using h.lease.holder x (by simpa using hhold)
  have hga : (s.grant c).ahead = [] := by rw [State.grant_eq, State.setPhase_ahead]; exact hahead
  refine ⟨⟨?_, ?_, ?_, .ofNoneAhead hga ?_ ?_ ?_⟩, State.grant_owner s c, hga⟩
  · have hlease := h.lease
    rw [State.LeaseOk, howner, hpending] at hlease
    rw [State.LeaseOk, phases_update hfronts, State.grant_owner, State.grant_pending, hpending, hself, State.grant_eq,
      State.setPhase_brTxn, State.setPhase_bootReq]
    exact hlease.grant c
  · refine h.waiters.isolated h.lease (Leaves.grant c s).isolated fun _ => ?_
    refine (State.wantsLease_congr (by rw [hself]) ?_ fun _ => ?_).trans hwants <;> rw [State.grant_eq] <;> simp
  · refine h.regs.congr ?_ ?_ ?_ ?_ ?_ (fun d => ?_) fun x _ => hnone x
    all_goals rw [State.grant_eq]
    case refine_6 => rw [State.setPhase_dap]; cases d <;> rfl
    all_goals simp
  · rw [State.grant_eq, State.setPhase_brTxn, State.setPhase_csN]
    intro ht
    have hcs := h.logs.csIdle ht
    rwa [hahead] at hcs
  · rw [State.grant_log, State.grant_owner]
    exact leasedLog_cons.mpr ⟨none, howner ▸ h.logs.leased, by simp [ownerAfter]⟩
  · rw [State.grant_log, State.grant_eq, State.setPhase_leaseWaits]
    exact fun w hw => (h.logs.waitsPlaced w hw).trans (Nat.le_succ _)

/-- A bus action starts in a state of the invariant with no event ahead. -/
theorem BusStart.onBus {c : Chan} {s t : State} (h : s.Core)
    (hphase : (s.front c).phase = .idle ∨ (s.front c).phase = .granted) (hstart : BusStart c s (s.wantsLease c) t) :
    OnBus c t := by
  have hran : (s.front c).phase.hasRun = false := by
    obtain hp | hp := hphase <;> rw [hp] <;> rfl
  cases hstart with
  | inTransaction _ _ howner => exact ⟨h, howner, h.logs.noneAhead howner hran⟩
  | granted _ _ howner => exact ⟨h, howner, h.logs.noneAhead howner hran⟩
  | grants hlease hfree => exact h.grant hfree hlease

/-! ## Running a command -/

/-- A bus action of the lease holder that ends with the built response keeps the invariant. -/
theorem LeasedRun.core {c : Chan} {s t : State} {release : Bool} (hrun : LeasedRun c s t release) (hbus : OnBus c s)
    (resp : Option Frame) : (t.respond c resp release).Core := by
  obtain ⟨h, howner, hahead⟩ := hbus
  obtain ⟨hact, hkeeps, hends, hpins⟩ := hrun
  have hto : t.owner = some c := hact.owner.trans howner
  have hta : t.ahead = [] := by rw [hact.frame]; exact hahead
  have hfronts (x : Chan) (hx : x ≠ c) : (t.respond c resp release).front x = s.front x :=
    (State.respond_front_ne t resp release hx).trans (hact.front x)
  have hself : ((t.respond c resp release).front c).phase = .ran resp release := by rw [State.respond_front_self]
  have hbridge : s.BridgePins := ⟨h.regs.txnPins, fun ht => by have hcs := h.logs.csIdle ht; rwa [hahead] at hcs⟩
  have hdapTxn (hc : c ≠ .ch0) : t.brTxn = false := by
    rw [hact.otherTxn hc]
    by_contra ht
    exact hc (Option.some_inj.mp (howner.symm.trans (h.lease.txnOwner (by simpa using ht))))
  have htpins : t.BridgePins := by
    by_cases hc : c = .ch0
    · exact hpins hc hbridge
    · have hcs : t.outReg .csN = s.outReg .csN := by
        obtain ⟨ks, hks, hrec⟩ := hact.records
        rw [hrec.2.2]
        exact levelOf_command (p := .csN) hc nofun (.inl rfl) hks (List.append_nil _).symm _
      refine ⟨fun ht => by simp [hdapTxn hc] at ht, fun ht => hcs.trans (hbridge.2 ?_)⟩
      rw [← hact.otherTxn hc]; exact ht
  obtain ⟨ks, hks, hlog, -, -⟩ := hact.records
  refine ⟨?_, ?_, ⟨?_, ?_, fun d hd => ?_, fun d => ?_, ?_⟩, .ofNoneAhead ?_ ?_ ?_ fun w hw => ?_⟩
  · have hlease := h.lease
    rw [State.LeaseOk, howner] at hlease
    have hr := hlease.run (txn' := t.brTxn) resp hkeeps fun hr => by
      by_cases hc : c = .ch0
      · exact hends hr hc
      · exact hdapTxn hc
    have hpending : t.pending = s.pending := by rw [hact.frame]
    have hboot : t.bootReq = s.bootReq := by rw [hact.frame]
    rw [State.LeaseOk, phases_update hfronts, hself, State.respond_owner, hto, State.respond_pending, hpending,
      State.respond_brTxn, State.respond_bootReq, hboot]
    exact hr
  · refine h.waiters.isolated h.lease ((Leaves.ofAction hact).trans (.respond c t resp release)).isolated ?_
    rw [hself]; nofun
  · simpa using htpins.1
  · simpa [State.SwdDriven] using hact.driven h.regs.driven
  · rw [State.respond_dap]
    by_cases hdc : d.chan = c
    · rw [hdc, hself] at hd
      obtain ⟨hc0, -⟩ := hkeeps hd
      rw [hc0] at hdc
      cases d <;> simp [DapCh.chan] at hdc
    · rw [hact.otherDap d hdc]
      exact h.regs.dapRest d (by rwa [hfronts _ hdc] at hd)
  · rw [State.respond_dap]
    exact hact.turnaround d (h.regs.turnaround d)
  · rw [State.respond_swdPort, hact.frame]
    exact h.regs.port
  · simpa using hta
  · simpa using htpins.2
  · rw [State.respond_log, State.respond_owner, hto, hlog, howner]
    exact leasedLog_gains hks (howner ▸ h.logs.leased)
  · have hwaits : t.leaseWaits = s.leaseWaits := by rw [hact.frame]
    rw [State.respond_leaseWaits, hwaits] at hw
    rw [State.respond_log, hlog, List.length_append]
    exact (h.logs.waitsPlaced w hw).trans (Nat.le_add_left ..)

/-- The trigger of R167 keeps the invariant. -/
theorem OnBus.boots {s : State} (hbus : OnBus .ch0 s) : (bootTrigger s).Core := by
  obtain ⟨h, howner, hahead⟩ := hbus
  have heq := bootTrigger_eq howner
  generalize bootTrigger s = t at heq
  have hfronts (x : Chan) (hx : x ≠ .ch0) : t.front x = s.front x := by
    rw [heq]; cases x <;> first | rfl | exact absurd rfl hx
  have hself : (t.front .ch0).phase = .idle := by rw [heq]; rfl
  refine ⟨?_, fun x hx => ?_, ?_, .ofNoneAhead ?_ ?_ ?_ ?_⟩
  · have hlease := h.lease
    rw [State.LeaseOk, howner] at hlease
    rw [State.LeaseOk, phases_update hfronts, hself, heq, howner]
    exact hlease.boots
  · by_cases hx0 : x = .ch0
    · subst hx0
      rw [hself] at hx
      simp at hx
    · exact (State.wantsLease_congr (by rw [hfronts x hx0]) (by rw [heq]) fun _ => by rw [heq]).trans
        (h.waiters x (hfronts x hx0 ▸ hx))
  · have hdap (d : DapCh) : t.dap d = s.dap d := by rw [heq]; cases d <;> rfl
    have hne (d : DapCh) : d.chan ≠ .ch0 := by cases d <;> simp [DapCh.chan]
    refine ⟨by rw [heq]; exact h.regs.txnPins, by rw [heq]; exact h.regs.driven, fun d hd => ?_, fun d => ?_,
      by rw [heq]; exact h.regs.port⟩
    · rw [hdap]; exact h.regs.dapRest d (hfronts _ (hne d) ▸ hd)
    · rw [hdap]; exact h.regs.turnaround d
  all_goals rw [heq]
  · exact hahead
  · intro ht
    have hcs := h.logs.csIdle ht
    rwa [hahead] at hcs
  · rw [howner]
    exact leasedLog_gains (by simp [EventKind.within]) (howner ▸ h.logs.leased)
  · exact fun w hw => (h.logs.waitsPlaced w hw).trans (by simp [gains])

/-- A channel that asks for a held lease waits in PENDING (R125). -/
theorem State.Core.acquire {s : State} {c : Chan} (h : s.Core) (hidle : (s.front c).phase = .idle)
    (hwants : s.wantsLease c = true) (howner : s.owner ≠ some c) (hwaits : (s.acquire c).owner ≠ some c) :
    (s.acquire c).Core := by
  cases hx : s.owner with
  | none =>
    have hfree : s.Free := ⟨hx, h.lease.free hx⟩
    rw [State.acquire_grant hfree] at hwaits
    exact absurd (State.grant_owner s c) hwaits
  | some x =>
    have hfronts (y : Chan) (hy : y ≠ c) : (s.acquire c).front y = s.front y := by
      rw [State.acquire_held hx, State.setPhase_front_ne _ _ hy]; cases y <;> rfl
    have hself : (s.acquire c).front c = { s.front c with phase := .waiting } := by
      rw [State.acquire_held hx, State.setPhase_front_self]; cases c <;> rfl
    refine ⟨?_, ?_, ?_, ?_⟩
    · rw [State.LeaseOk, phases_update hfronts, hself, State.acquire_held hx]
      simpa using h.lease.wait hidle (by simp [hx]) howner
    · refine h.waiters.isolated h.lease (State.acquire_isolated c s) fun _ => ?_
      refine (State.wantsLease_congr (by rw [hself]) ?_ fun _ => ?_).trans hwants <;> rw [State.acquire_held hx] <;> simp
    · refine h.regs.congr ?_ ?_ ?_ ?_ ?_ (fun d => ?_) fun y hy => ?_
      case refine_7 =>
        by_cases hyc : y = c
        · rw [hyc, hidle]; rfl
        · exact hfronts y hyc ▸ hy
      all_goals rw [State.acquire_held hx]
      case refine_6 => rw [State.setPhase_dap]; cases d <;> rfl
      all_goals simp
    · refine h.logs.congr ?_ ?_ ?_ ?_ ?_ (fun y _ hy hran => ?_) ?_
      case refine_6 =>
        have hyc : y ≠ c := fun hyc => howner (hyc ▸ hy)
        rw [hfronts y hyc]; exact hran
      all_goals rw [State.acquire_held hx]
      case refine_7 => simpa using h.logs.waitsPlaced
      all_goals simp

/-- A command of an idle or granted channel keeps the invariant. -/
theorem CommandOutcome.core {c : Chan} {s t : State} (h : s.Core)
    (hphase : (s.front c).phase = .idle ∨ (s.front c).phase = .granted)
    (hout : CommandOutcome c s (s.wantsLease c) t) : t.Core := by
  have hran : (s.front c).phase.hasRun = false := by
    obtain hp | hp := hphase <;> rw [hp] <;> rfl
  cases hout with
  | @answers u resp hlease hoff =>
    have hidle : (s.front c).phase = .idle := hphase.resolve_right fun hp => by
      simp [h.waiters c (.inr hp)] at hlease
    have hout : c ∉ s.pending := by rw [h.lease.waiting, hidle]; nofun
    have hfilter : s.pending.filter (· ≠ c) = s.pending := by
      simpa using fun x hx (hxc : x = c) => hout (hxc ▸ hx)
    have hfront (x : Chan) : u.front x = s.front x := by rw [hoff.frame]; cases x <;> rfl
    refine h.quiet (c := c) ?_ (fun x hx => (State.respond_front_ne u resp false hx).trans (hfront x))
      (by rw [hidle]; rfl) (by rw [State.respond_front_self]; rfl) (fun _ _ => by rw [State.respond_front_self]; rfl) ?_
    · rw [hfilter, hoff.frame]; cases c <;> rfl
    · rw [State.respond_leaseWaits, hoff.frame]; exact h.logs.waitsPlaced
  | waits hlease howner _ hwaits =>
    refine h.acquire (hphase.resolve_right fun hp => howner ?_) hlease howner hwaits
    exact h.lease.holder c (by rw [hp]; rfl)
  | runs resp release hstart hrun => exact hrun.core (hstart.onBus h hphase) resp
  | boots hc hstart =>
    subst hc
    exact (hstart.onBus h hphase).boots

/-! ## Held events -/

/-- Before an event of a lease the owner is the owner after it. -/
theorem ownerAfter_within_eq {c : Chan} {k : EventKind} {o : Option Chan} (hk : k.within c = true)
    (h : ownerAfter o ⟨some c, k⟩ = some (some c)) : o = some c := by
  cases k
  case grant x => simp [EventKind.within] at hk
  case release x => simp [EventKind.within] at hk
  case reset => simp [EventKind.within] at hk
  all_goals
    cases o with
    | none => simp [ownerAfter] at h
    | some x =>
      simp only [ownerAfter, Option.ite_none_right_eq_some] at h
      obtain ⟨⟨htag, -⟩, -⟩ := h
      exact htag.symm

/-- Taking the last events of a lease off a log leaves a log of the same lease. -/
theorem leasedLog_dropGains {c : Chan} {ks : List EventKind} {log : List Event} (hks : ∀ k ∈ ks, k.within c = true)
    (h : leasedLog (gains (some c) ks log) = some (some c)) : leasedLog log = some (some c) := by
  induction ks generalizing log with
  | nil => exact h
  | cons k ks ih =>
    obtain ⟨hk, hks⟩ := List.forall_mem_cons.mp hks
    have hcons : gains (some c) (k :: ks) log = gains (some c) ks (⟨some c, k⟩ :: log) := by simp [gains]
    rw [hcons] at h
    obtain ⟨o, ho, hafter⟩ := leasedLog_cons.mp (ih hks h)
    rw [ho, ownerAfter_within_eq hk hafter]

/-- The held events of a command stand after its grant: they are the last of its bus action's own. -/
theorem HeldBack.later_eq {c : Chan} {hold : Nat} {s t u : State} {es now later : List Event} {ks : List EventKind}
    {o : Option Chan} (h : HeldBack c hold s t u (es ++ ks.map fun k => ⟨o, k⟩) now later) (hgrant : IsGrant es) :
    ∃ n, later = (ks.drop n).map fun k => ⟨o, k⟩ := by
  have hcount : later.length ≤ ks.length := by
    refine h.holdable.trans ?_
    rw [List.countP_append]
    have hes : es.countP (·.kind.holdable) = 0 := by
      obtain rfl | ⟨x, rfl⟩ := hgrant <;> rfl
    rw [hes, Nat.zero_add]
    exact List.countP_le_length.trans (by simp)
  have hlen : (es ++ ks.map fun k => (⟨o, k⟩ : Event)).length = now.length + later.length := by
    rw [h.split, List.length_append]
  rw [List.length_append, List.length_map] at hlen
  have hlater : later = (es ++ ks.map fun k => (⟨o, k⟩ : Event)).drop now.length := by
    rw [h.split, List.drop_left]
  refine ⟨now.length - es.length, ?_⟩
  rw [hlater, List.drop_append, List.drop_of_length_le (by omega), List.nil_append, List.map_drop]

/-- Holding back the last events of a command keeps the invariant (log entry 7). -/
theorem CommandOutcome.holdBack_core {c : Chan} {s t : State} {lease : Bool} (hs : s.Core) (ht : t.Core)
    (hout : CommandOutcome c s lease t) (hold : Nat) : (s.holdBack c hold t).Core := by
  obtain ⟨es, ks, hgrant, hks, hrec⟩ := hout.records
  by_cases hahead : s.ahead = []
  swap
  · rw [State.holdBack_other (.inr (.inr (by rw [hrec.2.1]; exact hahead)))]
    exact ht
  have hbus := s.holdBack_bus t c hold
  obtain ⟨now, later, hheld⟩ := State.holdBack_held c hold hrec hahead
  by_cases hnil : later = []
  · have hsame := hheld.settled
    rw [State.settled_of_nil (hheld.ahead.trans hnil)] at hsame
    rw [hsame]
    exact ht
  obtain ⟨hran, howner⟩ := hheld.running hnil
  obtain ⟨n, hlater⟩ := hheld.later_eq hgrant
  rw [howner] at hlater
  have hwithin (k : EventKind) (hk : k ∈ ks.drop n) : k.within c = true := hks k (List.mem_of_mem_drop hk)
  have hwaits : t.leaseWaits = s.leaseWaits := hout.isolated.leaseWaits
  have hsettled := hheld.settled
  have hlog := hheld.log
  have hua := hheld.ahead
  generalize s.holdBack c hold t = u at hbus hsettled hlog hua ⊢
  have hphases : (fun x => (u.front x).phase) = fun x => (t.front x).phase := by funext x; rw [hbus.front]
  refine ⟨?_, ?_, ?_, ⟨fun hu => ?_, ?_, fun _ => ⟨c, hbus.owner.trans howner, by rw [hbus.front]; exact hran⟩,
    fun e he => ?_, fun w hw => ?_⟩⟩
  · rw [State.LeaseOk, hphases, hbus.owner, hbus.pending]
    rw [hbus]
    exact ht.lease
  · refine ht.waiters.isolated ht.lease (Leaves.ofBus (c := c) hbus).isolated fun hw => ?_
    refine (State.wantsLease_congr (by rw [hbus.front]) (by rw [hbus]) fun _ => by rw [hbus]).trans (ht.waiters c ?_)
    rwa [hbus.front] at hw
  · refine ht.regs.congr ?_ ?_ ?_ ?_ ?_ hbus.dap fun x hx => hbus.front x ▸ hx
    all_goals rw [hbus]
  · have htxn : t.brTxn = false := by rw [hbus] at hu; exact hu
    have hcs : u.settled.csN = true := by
      rw [hsettled]
      have hcs := ht.logs.csIdle htxn
      rwa [hrec.2.1, hahead] at hcs
    exact (u.settled_outReg .csN).symm.trans hcs
  · have hall : t.log = gains (some c) (ks.drop n) u.log := by
      rw [hrec.1, hheld.split, List.reverse_append, List.append_assoc, ← hlog, hlater, gains]
    rw [hbus.owner, howner]
    exact leasedLog_dropGains hwithin (hall ▸ howner ▸ ht.logs.leased)
  · rw [hua, hlater] at he
    obtain ⟨k, hk, rfl⟩ := List.mem_map.mp he
    rw [hbus.owner, howner]
    exact ownerAfter_within (hwithin k hk)
  · have huw : u.leaseWaits = t.leaseWaits := by rw [hbus]
    rw [huw, hwaits] at hw
    rw [hlog, List.length_append]
    exact (hs.logs.waitsPlaced w hw).trans (Nat.le_add_left ..)

end Sys2Proof.Machine
end

section
/-! SUPPORT. The end of a command, the moves of the environment, and the invariant of every step. -/

namespace Sys2Proof.Machine

/-! ## Release -/

/-- The owner's release and the end of its command keep the invariant (R129): `s` is the state before the release, in
which the lease may have no reason but the release to come. -/
theorem State.core_of_release {c : Chan} {s t : State} {f : Front} {txn : Bool}
    (hlease : LeaseInv s.owner s.pending (fun x => (s.front x).phase) txn s.bootReq) (hwaiters : s.Waiters)
    (hregs : s.RegsInv) (hlogs : s.LogInv) (howner : s.owner = some c) (hahead : s.ahead = []) (htxn : s.brTxn = false)
    (hrest : ∀ d : DapCh, d.chan = c → (s.dap d).AtRest) (ht : s.release c = .next t) (hf : f.phase = .idle) :
    (t.setFront c f).Core := by
  obtain ⟨r, hr, heq, hfronts⟩ := State.release_passes howner hlease.nodup
  obtain rfl : r = t := Host.Outcome.next.inj (hr.symm.trans ht)
  have hphases : (fun x => ((r.setFront c f).front x).phase) =
      Function.update (LeaseInv.afterRelease s.pending fun x => (s.front x).phase) c .idle := by
    funext x
    by_cases hx : x = c
    · subst hx; simp [hf]
    · rw [State.setFront_front_ne r f hx, hfronts, Function.update_of_ne hx, LeaseInv.afterRelease]
      split <;> rfl
  have hwait (x : Chan) (hx : s.pending.head? = some x) : (s.front x).phase = .waiting :=
    (hlease.waiting x).mp (List.mem_of_mem_head? hx)
  have hrtxn : r.brTxn = s.brTxn := by rw [heq]
  have hlog : leasedLog r.log = some s.pending.head? := by
    have hrel : leasedLog (⟨some c, .release c⟩ :: s.log) = some none :=
      leasedLog_cons.mpr ⟨some c, howner ▸ hlogs.leased, by simp [ownerAfter]⟩
    rw [heq]
    cases hp : s.pending.head? with
    | none => exact hrel
    | some x => exact leasedLog_cons.mpr ⟨none, hrel, by simp [ownerAfter]⟩
  refine ⟨?_, fun x hx => ?_, ⟨fun h => ?_, ?_, fun d hd => ?_, fun d => ?_, ?_⟩, .ofNoneAhead ?_ (fun _ => ?_) ?_ ?_⟩
  · rw [howner] at hlease
    rw [State.LeaseOk, hphases, State.setFront_owner, State.setFront_pending, State.setFront_brTxn,
      State.setFront_bootReq, hrtxn, htxn, heq]
    exact hlease.release
  · by_cases hxc : x = c
    · subst hxc
      rw [State.setFront_front_self, hf] at hx
      simp at hx
    · have hrx : ((r.setFront c f).front x).rx = (s.front x).rx := by
        rw [State.setFront_front_ne r f hxc, hfronts]; split <;> rfl
      refine (State.wantsLease_congr hrx (by rw [State.setFront_cfg, heq]) fun _ => by
        rw [State.setFront_brTxn, hrtxn]).trans (hwaiters x ?_)
      rw [State.setFront_front_ne r f hxc, hfronts] at hx
      split at hx
      · rename_i hhead; exact .inl (hwait x hhead)
      · exact hx
  · simp [hrtxn, htxn] at h
  · rw [State.SwdDriven, State.setFront_pinMode, State.setFront_swdioOe, heq]
    exact hregs.driven
  · have hrdap : r.dap d = s.dap d := by rw [heq]; cases d <;> rfl
    rw [State.setFront_dap, hrdap]
    by_cases hdc : d.chan = c
    · exact hrest d hdc
    · rw [State.setFront_front_ne r f hdc, hfronts] at hd
      refine hregs.dapRest d ?_
      split at hd
      · rename_i hhead; rw [hwait _ hhead]; rfl
      · exact hd
  · have hrdap : r.dap d = s.dap d := by rw [heq]; cases d <;> rfl
    rw [State.setFront_dap, hrdap]
    exact hregs.turnaround d
  · rw [State.setFront_swdPort, heq]
    exact hregs.port
  · rw [State.setFront_ahead, heq]
    exact hahead
  · have hcs := hlogs.csIdle htxn
    rw [hahead] at hcs
    rw [State.setFront_csN, heq]
    exact hcs
  · rw [State.setFront_log, State.setFront_owner, hlog, heq]
  · rw [State.setFront_leaseWaits, State.setFront_log, heq]
    intro w hw
    refine (hlogs.waitsPlaced w hw).trans ?_
    simp only [List.length_append, List.length_cons]
    omega

/-- The end of a command that has run keeps the invariant (R121, R220, R288). -/
theorem State.Core.endCommand {c : Chan} {s t : State} {resp : Option Frame} {release : Bool} (h : s.Core)
    (hphase : (s.front c).phase = .ran resp release) (hend : s.endCommand c = .next t) : t.Core := by
  obtain ⟨hcore, hnone⟩ := h.finishBus c
  have hbus := s.finishBus_bus c
  cases release with
  | false =>
    rw [State.endCommand_keeping hphase] at hend
    obtain rfl := Host.Outcome.next.inj hend
    generalize s.finishBus c = u at hcore hnone hbus
    have hout : c ∉ u.pending := by rw [hcore.lease.waiting, hbus.front, hphase]; nofun
    have hfilter : u.pending.filter (· ≠ c) = u.pending := by
      simpa using fun x hx (hxc : x = c) => hout (hxc ▸ hx)
    refine hcore.quiet (c := c) ?_ (fun x hx => State.setFront_front_ne u _ hx) (by rw [hbus.front, hphase]; rfl)
      (by rw [State.setFront_front_self]; rfl) (fun howner hne => ?_) ?_
    · rw [hfilter]; cases c <;> rfl
    · exact absurd (hnone (hbus.owner ▸ howner)) hne
    · rw [State.setFront_leaseWaits]; exact hcore.logs.waitsPlaced
  | true =>
    rw [State.endCommand_releasing hphase] at hend
    obtain ⟨r, hr, ht⟩ := andThen_next.mp hend
    obtain rfl := Host.Outcome.next.inj ht
    have howner : s.owner = some c := h.lease.holder c (by rw [hphase]; rfl)
    replace hnone := hnone howner
    have hphase' : ((s.finishBus c).front c).phase = .ran resp true := by rw [hbus.front, hphase]
    replace howner : (s.finishBus c).owner = some c := hbus.owner.trans howner
    generalize s.finishBus c = u at hcore hnone hbus hr hphase' howner
    have htxn : u.brTxn = false := by
      by_contra htxn
      have hc := Option.some_inj.mp (howner.symm.trans (hcore.lease.txnOwner (by simpa using htxn)))
      subst hc
      have hfree := hcore.lease.txnFrame (by simpa using htxn)
      simp [hphase', Phase.holdsLease] at hfree
    have heq := u.closeCommand_eq c
    have hdap (d : DapCh) := u.closeCommand_dap c d
    have hclose := Leaves.closeCommand c u
    have hfront (x : Chan) : (u.closeCommand c).front x = u.front x := by rw [heq]; cases x <;> rfl
    generalize u.closeCommand c = w at heq hdap hclose hfront hr
    have hrest (d : DapCh) (hd : d.chan = c) : (w.dap d).AtRest := by
      rw [hdap, if_pos hd]
      refine ⟨rfl, ?_, rfl⟩
      split
      · nofun
      · assumption
    refine State.core_of_release (txn := u.brTxn) ?_ ?_ ⟨?_, ?_, fun d hd => ?_, fun d => ?_, ?_⟩ ?_ ?_ ?_ ?_ hrest hr rfl
    · simp only [hfront]
      rw [heq]
      exact hcore.lease
    · refine hcore.waiters.isolated hcore.lease hclose.isolated fun hw => ?_
      rw [hfront, hphase'] at hw
      simp at hw
    · rw [heq]; exact hcore.regs.txnPins
    · rw [heq]; exact hcore.regs.driven
    · by_cases hdc : d.chan = c
      · exact hrest d hdc
      · rw [hdap, if_neg hdc]
        exact hcore.regs.dapRest d (hfront _ ▸ hd)
    · rw [hdap]
      split <;> exact hcore.regs.turnaround d
    · rw [heq]; exact hcore.regs.port
    · refine hcore.logs.congr ?_ ?_ ?_ ?_ ?_ (fun x _ _ hx => hfront x ▸ hx) (by rw [heq]; exact hcore.logs.waitsPlaced)
      all_goals rw [heq]
    all_goals rw [heq]; assumption

/-! ## A step of a channel -/

/-- The frame that a channel takes or goes on with. -/
theorem Begins.core {c : Chan} {s u : State} (h : s.Core) (hbegin : Begins c s u) :
    u.Core ∧ ((u.front c).phase = .idle ∨ (u.front c).phase = .granted) := by
  obtain ⟨-, ⟨hidle, -, rfl⟩ | ⟨hgranted, rfl⟩⟩ := hbegin
  · exact ⟨h.setFront rfl fun _ => rfl, .inl (by rw [State.takeFrame, State.setFront_front_self]; exact hidle)⟩
  · exact ⟨h, .inr hgranted⟩

theorem PacedOutcome.core {c : Chan} {hold : Nat} {s t : State} (h : s.Core) (hout : PacedOutcome c hold s t) :
    t.Core := by
  cases hout with
  | runs hbegin hrun =>
    obtain ⟨hu, hphase⟩ := hbegin.core h
    exact hrun.holdBack_core hu (hrun.core hu hphase) hold
  | ends resp release hphase hend => exact h.endCommand hphase hend
  | rests => exact h

/-- The front end of the channel itself after its command: its phase moves on, or BOOTLOAD has ended it (R167). -/
theorem CommandOutcome.front_self {c : Chan} {s t : State} {lease : Bool} (hs : s.Core)
    (h : CommandOutcome c s lease t) :
    (∃ p, p ≠ .idle ∧ t.front c = { s.front c with phase := p }) ∨ ∃ resp, t.front c = (s.front c).ended resp := by
  have hstart {u : State} (hu : BusStart c s lease u) : u.front c = s.front c ∨
      u.front c = { s.front c with phase := .granted } := by
    cases hu with
    | inTransaction => exact .inl rfl
    | granted => exact .inl rfl
    | grants => exact .inr (State.grant_front_self s c)
  cases h with
  | @answers u resp _ hoff =>
    have hu : u.front c = s.front c := by rw [hoff.frame]; cases c <;> rfl
    exact .inl ⟨.ran resp false, by simp, by rw [State.respond_front_self, hu]⟩
  | waits _ howner _ hwaits =>
    cases hx : s.owner with
    | none =>
      rw [State.acquire_grant ⟨hx, hs.lease.free hx⟩] at hwaits
      exact absurd (State.grant_owner s c) hwaits
    | some x =>
      refine .inl ⟨.waiting, by simp, ?_⟩
      rw [State.acquire_held hx, State.setPhase_front_self]
      cases c <;> rfl
  | @runs u v resp release hu hrun =>
    refine .inl ⟨.ran resp release, by simp, ?_⟩
    rw [State.respond_front_self, hrun.action.front]
    obtain heq | heq := hstart hu <;> rw [heq]
  | @boots u hc hu =>
    subst hc
    refine .inr ⟨some (bridgeReply []), ?_⟩
    have hboot : (bootTrigger u).front .ch0 = (u.front .ch0).ended (some (bridgeReply [])) := by
      rw [bootTrigger, State.deliver_freeSlot]; rfl
    rw [hboot]
    obtain heq | heq := hstart hu <;> rw [heq]
    rfl

theorem Front.WellFormed.ended (f : Front) (resp : Option Frame) : (f.ended resp).WellFormed :=
  ⟨⟨fun _ => rfl, fun _ => rfl⟩, nofun, fun _ => ⟨rfl, rfl⟩⟩

/-- A busy channel with a frame, in any phase but idle. -/
theorem Front.WellFormed.withPhase {f : Front} {p : Phase} (hp : p ≠ .idle) (hbusy : f.busy = true) (hrx : f.rx ≠ none)
    (hlink : f.link ≠ .detached) : Front.WellFormed { f with phase := p } :=
  ⟨⟨fun h => by simp [hbusy] at h, fun h => absurd h hp⟩, fun _ => hrx, fun h => absurd h hlink⟩

/-- A step of a channel keeps the invariant (R121). -/
theorem PacedOutcome.inv {c : Chan} {hold : Nat} {s t : State} (h : s.Inv) (hout : PacedOutcome c hold s t) :
    t.Inv := by
  obtain ⟨hcore, hwf⟩ := s.inv_iff.mp h
  have hothers := hout.isolated.wellFormed hcore.lease fun x _ => hwf x
  refine t.inv_iff.mpr ⟨hout.core hcore, fun x => ?_⟩
  by_cases hx : x ≠ c
  · exact hothers x hx
  obtain rfl : x = c := not_not.mp hx
  cases hout with
  | rests => exact hwf x
  | ends resp release hphase hend =>
    obtain ⟨v, rfl, -⟩ := State.endCommand_next hphase hend
    rw [State.setFront_front_self]
    exact .ended _ _
  | @runs u t hbegin hrun =>
    obtain ⟨hu, -⟩ := hbegin.core hcore
    have hframe : (s.front x).rx ≠ none := hbegin.1
    have hlink : (s.front x).link ≠ .detached := fun hl => hframe ((hwf x).detached hl).1
    have hfront : (u.front x).busy = true ∧ (u.front x).rx = (s.front x).rx ∧ (u.front x).link = (s.front x).link := by
      obtain ⟨-, ⟨-, -, rfl⟩ | ⟨hgranted, rfl⟩⟩ := hbegin
      · rw [State.takeFrame, State.setFront_front_self]; exact ⟨rfl, rfl, rfl⟩
      · refine ⟨?_, rfl, rfl⟩
        by_contra hb
        simp [(hwf x).busy.mp (by simpa using hb)] at hgranted
    obtain ⟨hbusy, hrx, hl⟩ := hfront
    rw [(u.holdBack_bus t x hold).front]
    obtain ⟨p, hp, heq⟩ | ⟨resp, heq⟩ := hrun.front_self hu
    · rw [heq]
      exact .withPhase hp hbusy (by rw [hrx]; exact hframe) (by rw [hl]; exact hlink)
    · rw [heq]
      exact .ended _ _

/-- A cycle of any channels keeps the invariant. -/
theorem runCycle_inv {hold : Nat} {cs : List Chan} {s t : State} (h : s.Inv) (ht : runCycle hold cs s = .next t) :
    t.Inv := by
  have hfold (order : List Chan) (o : Result) (ho : ∀ u, o = .next u → u.Inv) :
      ∀ u, order.foldl (fun o c => andThen o (pacedStep hold c)) o = .next u → u.Inv := by
    induction order generalizing o with
    | nil => exact ho
    | cons c order ih =>
      refine ih _ fun u hu => ?_
      obtain ⟨v, hv, hstep⟩ := andThen_next.mp hu
      exact (pacedStep_outcome hstep).inv (ho v hv)
  exact hfold _ _ (fun u hu => Host.Outcome.next.inj hu ▸ h) t ht

end Sys2Proof.Machine
end

section
/-! SUPPORT. The moves of the environment and the invariant of every step (R291). -/

namespace Sys2Proof.Machine

/-! ## Detach -/

/-- The channel's registers return to their reset values (R131). -/
theorem State.Core.resetInterpreter {s : State} (h : s.Core) (c : Chan) : (s.resetInterpreter c).Core := by
  have hset (d : DapCh) : (s.setDap d (DapRegs.reset s.cfg)).Core := by
    have hrest : (DapRegs.reset s.cfg).AtRest := ⟨rfl, nofun, rfl⟩
    refine ⟨?_, fun x hx => ?_, ⟨?_, ?_, fun e he => ?_, fun e => ?_, ?_⟩, ?_⟩
    · simpa [State.LeaseOk] using h.lease
    · rw [State.setDap_front] at hx
      exact (State.wantsLease_congr (by simp) (by simp) (by simp)).trans (h.waiters x hx)
    · simpa using h.regs.txnPins
    · simpa [State.SwdDriven] using h.regs.driven
    · by_cases hed : e = d
      · rw [hed, State.setDap_dap_self]; exact hrest
      · rw [State.setDap_dap_ne s _ hed]
        exact h.regs.dapRest e (by simpa using he)
    · by_cases hed : e = d
      · rw [hed, State.setDap_dap_self]; exact ⟨Nat.le_refl 1, by simp [DapRegs.reset]⟩
      · rw [State.setDap_dap_ne s _ hed]
        exact h.regs.turnaround e
    · simpa using h.regs.port
    · exact h.logs.congr (by simp) (by simp) (by simp) (by simp) (by simp) (fun x _ _ hx => by simpa using hx)
        (by simpa using h.logs.waitsPlaced)
  unfold State.resetInterpreter
  split
  · exact hset _
  · have hfront (x : Chan) : State.front { s with brDiv := divReset s.cfg } x = s.front x := by cases x <;> rfl
    refine ⟨?_, fun x hx => ?_, ?_, ?_⟩
    · simpa only [State.LeaseOk, hfront] using h.lease
    · rw [hfront] at hx
      exact (State.wantsLease_congr (by rw [hfront]) rfl fun _ => rfl).trans (h.waiters x hx)
    · exact h.regs.congr rfl rfl rfl rfl rfl (fun d => by cases d <;> rfl) fun x hx => hfront x ▸ hx
    · exact h.logs.congr rfl rfl rfl rfl rfl (fun x _ _ hx => (hfront x).symm ▸ hx) h.logs.waitsPlaced

theorem Leaves.resetInterpreter (c : Chan) (s : State) : Leaves c s (s.resetInterpreter c) := by
  have hset (d : DapCh) (hd : d.chan = c) : Leaves c s (s.setDap d (DapRegs.reset s.cfg)) :=
    ⟨fun x _ => State.setDap_front .., fun e he => State.setDap_dap_ne s _ fun hed => he (hed ▸ hd), fun _ => by simp,
      fun _ _ => by simp, by simp, by simp, by simp, by simp⟩
  cases c with
  | ch0 =>
    exact ⟨fun x _ => by cases x <;> rfl, fun d _ => by cases d <;> rfl, fun h => absurd rfl h, fun _ _ => id, rfl, rfl,
      rfl, rfl⟩
  | ch1 => exact hset .v1 rfl
  | ch2 => exact hset .v2 rfl

theorem State.resetInterpreter_front (s : State) (c x : Chan) : (s.resetInterpreter c).front x = s.front x := by
  cases c <;> cases x <;> rfl

/-- Closing an open transaction and releasing its lease, with the slot emptied (R131). -/
theorem State.Core.closeTxn {s t u : State} (h : s.Core) (hidle : (s.front .ch0).phase = .idle)
    (hclose : onBus .ch0 (fun t => { t.csWrite true with brTxn := false }) s = .next t)
    (hrel : t.release .ch0 = .next u) : (u.freeSlot .ch0).Core ∧ Isolated .ch0 s u ∧ u.front .ch0 = s.front .ch0 := by
  obtain ⟨howner, rfl⟩ := onBus_next.mp hclose
  have hact : BusAction .ch0 s { s.csWrite true with brTxn := false } := (csWrite_busAction s true).trans (.setTxn _ _)
  have hcs : State.csN { s.csWrite true with brTxn := false } = true := by
    show (s.csWrite true).csN = true
    rw [State.csWrite_eq]
  have hfalse : State.brTxn { s.csWrite true with brTxn := false } = false := rfl
  generalize ({ s.csWrite true with brTxn := false } : State) = v at hact hcs hfalse hrel
  have hahead : s.ahead = [] := h.logs.noneAhead howner (by rw [hidle]; rfl)
  have hvahead : v.ahead = [] := by rw [hact.frame]; exact hahead
  obtain ⟨ks, hks, hlog, -, -⟩ := hact.records
  have hvowner : v.owner = some .ch0 := hact.owner.trans howner
  have hne (d : DapCh) : d.chan ≠ .ch0 := by cases d <;> simp [DapCh.chan]
  refine ⟨State.core_of_release (txn := s.brTxn) ?_ ?_ ⟨?_, hact.driven h.regs.driven, fun d hd => ?_, fun d => ?_, ?_⟩
    (.ofNoneAhead hvahead (fun _ => hcs) ?_ fun w hw => ?_) hvowner hvahead hfalse (fun d hd => absurd hd (hne d)) hrel
    rfl, ?_, ?_⟩
  · simp only [hact.front]
    rw [hact.frame]
    exact h.lease
  · refine h.waiters.isolated h.lease (Leaves.ofAction hact).isolated fun hw => ?_
    rw [hact.front, hidle] at hw
    simp at hw
  · simp [hfalse]
  · rw [hact.otherDap d (hne d)]
    exact h.regs.dapRest d (hact.front _ ▸ hd)
  · exact hact.turnaround d (h.regs.turnaround d)
  · rw [hact.frame]; exact h.regs.port
  · rw [hvowner, hlog, howner]
    exact leasedLog_gains hks (howner ▸ h.logs.leased)
  · have hwaits : v.leaseWaits = s.leaseWaits := by rw [hact.frame]
    rw [hlog, List.length_append]
    exact (h.logs.waitsPlaced w (hwaits ▸ hw)).trans (Nat.le_add_left ..)
  · obtain ⟨-, rfl⟩ := State.release_next.mp hrel
    have hfree : Leaves .ch0 v { v.logEv (.release .ch0) with owner := none } :=
      ⟨fun x _ => by cases x <;> rfl, fun d _ => by cases d <;> rfl, fun _ => ⟨rfl, rfl, rfl⟩, fun _ _ => id, rfl, rfl,
        rfl, rfl⟩
    exact ((Leaves.ofAction hact).trans hfree).trans_isolated (State.arbitrate_isolated .ch0 _)
  · have hpending : v.pending = s.pending := by rw [hact.frame]
    obtain ⟨r, hr, -, hfronts⟩ := State.release_passes hvowner (hpending ▸ h.lease.nodup)
    obtain rfl : r = u := Host.Outcome.next.inj (hr.symm.trans hrel)
    have hhead : v.pending.head? ≠ some .ch0 := fun hhead =>
      h.lease.ownerNot .ch0 howner (hpending ▸ List.mem_of_mem_head? hhead)
    rw [hfronts, if_neg hhead, hact.front]

/-- The cleanup of R131 for an idle channel keeps the invariant and leaves the channel's slot empty. -/
theorem State.Core.detachCleanup {s t : State} {c : Chan} (h : s.Core) (hidle : (s.front c).phase = .idle)
    (ht : s.detachCleanup c = .next t) :
    t.Core ∧ Isolated c s t ∧ t.front c = { s.front c with rx := none, busy := false, phase := .idle } := by
  obtain ⟨u, hu, ht⟩ := andThen_next.mp ht
  obtain rfl := Host.Outcome.next.inj ht
  have hend (hcore : (u.freeSlot c).Core) (hiso : Isolated c s u) (hfront : u.front c = s.front c) :
      ((u.freeSlot c).resetInterpreter c).Core ∧ Isolated c s ((u.freeSlot c).resetInterpreter c) ∧
        ((u.freeSlot c).resetInterpreter c).front c =
          { s.front c with rx := none, busy := false, phase := .idle } := by
    refine ⟨hcore.resetInterpreter c, hiso.trans_leaves ((Leaves.setFront c u _).trans (.resetInterpreter c _)) ?_, ?_⟩
    · cases c <;> rfl
    · rw [State.resetInterpreter_front, State.freeSlot, State.setFront_front_self, hfront]
  split at hu
  · rename_i hopen
    obtain ⟨rfl, -⟩ := hopen
    obtain ⟨v, hv, hrel⟩ := andThen_next.mp hu
    obtain ⟨hcore, hiso, hfront⟩ := h.closeTxn hidle hv hrel
    exact hend hcore hiso hfront
  · obtain rfl := Host.Outcome.next.inj hu
    exact hend (h.setFront hidle.symm fun _ => by simp_all) (Leaves.refl c s).isolated rfl

/-- A granted command runs to its response, or BOOTLOAD ends it (R125, R167). -/
theorem CommandOutcome.phase_of_granted {c : Chan} {s t : State} {lease : Bool} (h : s.Core)
    (hphase : (s.front c).phase = .granted) (hout : CommandOutcome c s lease t) :
    (t.front c).phase = .idle ∨ ∃ resp release, (t.front c).phase = .ran resp release := by
  cases hout with
  | answers resp => exact .inr ⟨resp, false, by rw [State.respond_front_self]⟩
  | waits _ howner => exact absurd (h.lease.holder c (by rw [hphase]; rfl)) howner
  | runs resp release => exact .inr ⟨resp, release, by rw [State.respond_front_self]⟩
  | boots hc hstart =>
    subst hc
    exact .inl (by rw [bootTrigger_eq hstart.owner]; rfl)

/-- A frame that waits for a lease, or was granted one, is in its slot. -/
theorem State.rx_of_wantsLease {s : State} {c : Chan} (h : s.wantsLease c = true) : (s.front c).rx ≠ none := by
  intro hrx
  simp [State.wantsLease, hrx] at h

/-- The end of a command, whether it has run or BOOTLOAD has ended it, in a state of the invariant. -/
theorem State.Core.endCommand_idle {s t : State} {c : Chan} (h : s.Core)
    (hphase : (s.front c).phase = .idle ∨ ∃ resp release, (s.front c).phase = .ran resp release)
    (ht : s.endCommand c = .next t) : t.Core ∧ (t.front c).phase = .idle ∧ Isolated c s t := by
  obtain hidle | ⟨resp, release, hran⟩ := hphase
  · rw [State.endCommand_idle hidle] at ht
    obtain rfl := Host.Outcome.next.inj ht
    exact ⟨h, hidle, (Leaves.refl c s).isolated⟩
  · exact ⟨h.endCommand hran ht, State.endCommand_phase hran ht, State.endCommand_isolated hran ht⟩

/-- A channel that leaves PENDING with its slot emptied (R131). -/
theorem State.Core.abandon {s : State} {c : Chan} (h : s.Core) (hwaits : c ∈ s.pending) :
    ((s.leavePending c).freeSlot c).Core := by
  refine h.quiet (c := c) ?_ (fun x hx => ?_) ?_ ?_ (fun howner => absurd hwaits (h.lease.ownerNot c howner)) ?_
  · cases c <;> rfl
  · rw [State.freeSlot, State.setFront_front_ne _ _ hx]; cases x <;> rfl
  · rw [(h.lease.waiting c).mp hwaits]; rfl
  · rw [State.freeSlot, State.setFront_front_self]; rfl
  · rw [State.freeSlot, State.setFront_leaseWaits]; exact h.logs.waitsPlaced

/-- What a channel does at its detach ends with the channel idle, in a state of the invariant (R131). -/
theorem State.Core.detachCommand {s t : State} {c : Chan} (h : s.Core) (ht : detachCommand c s = .next t)
    (hwf : ∀ x, x ≠ c → (s.front x).WellFormed) :
    t.Core ∧ (t.front c).phase = .idle ∧ ∀ x, x ≠ c → (t.front x).WellFormed := by
  have hends (hran : ∃ resp release, (s.front c).phase = .ran resp release) (hend : s.endCommand c = .next t) :
      t.Core ∧ (t.front c).phase = .idle ∧ ∀ x, x ≠ c → (t.front x).WellFormed := by
    obtain ⟨hcore, hidle, hiso⟩ := h.endCommand_idle (.inr hran) hend
    exact ⟨hcore, hidle, hiso.wellFormed h.lease hwf⟩
  unfold Machine.detachCommand at ht
  split at ht
  · rename_i hwaits
    obtain rfl := Host.Outcome.next.inj ht
    refine ⟨h.abandon hwaits, by rw [State.freeSlot, State.setFront_front_self], fun x hx => ?_⟩
    have hfront : ((s.leavePending c).freeSlot c).front x = s.front x := by
      rw [State.freeSlot, State.setFront_front_ne _ _ hx]; cases x <;> rfl
    rw [hfront]; exact hwf x hx
  · rename_i hout
    split at ht
    · rename_i f hphase hrx
      obtain ⟨u, hu, hend⟩ := andThen_next.mp ht
      have hcommand := runFrame_outcome hrx hu
      have hucore := hcommand.core h (.inr hphase)
      obtain ⟨hcore, hidle, hiso⟩ := hucore.endCommand_idle (hcommand.phase_of_granted h hphase) hend
      exact ⟨hcore, hidle, hiso.wellFormed hucore.lease (hcommand.isolated.wellFormed h.lease hwf)⟩
    · rename_i resp release hphase
      exact hends ⟨resp, release, hphase⟩ ht
    · rename_i hphase hrx
      exact absurd hrx (State.rx_of_wantsLease (h.waiters c (.inr hphase)))
    · rename_i hphase
      exact Host.Outcome.next.inj ht ▸ ⟨h, hphase, hwf⟩
    · rename_i hphase
      exact absurd ((h.lease.waiting c).mpr hphase) hout

/-- A detach keeps the invariant (R131). -/
theorem detachStep_inv {s t : State} {c : Chan} (h : s.Inv) (ht : detachStep c s = .next t) : t.Inv := by
  obtain ⟨hcore, hwf⟩ := s.inv_iff.mp h
  unfold detachStep at ht
  split at ht
  swap
  · exact Host.Outcome.next.inj ht ▸ h
  obtain ⟨u, hu, ht⟩ := andThen_next.mp ht
  have hlink : (s.setFront c { s.front c with link := .detached }).Core := hcore.setFront rfl fun _ => rfl
  obtain ⟨hucore, hidle, huwf⟩ := hlink.detachCommand hu fun x hx => by
    rw [State.setFront_front_ne _ _ hx]; exact hwf x
  obtain ⟨htcore, hiso, hfront⟩ := hucore.detachCleanup hidle ht
  refine t.inv_iff.mpr ⟨htcore, fun x => ?_⟩
  by_cases hx : x = c
  · subst hx
    rw [hfront]
    exact ⟨⟨fun _ => rfl, fun _ => rfl⟩, nofun, fun _ => ⟨rfl, rfl⟩⟩
  · exact hiso.wellFormed hucore.lease huwf x hx

/-! ## The other moves -/

/-- A reset leads to a state of the invariant (R310): every register is at its reset value. -/
theorem State.blockReset_inv {s : State} (h : s.Inv) : s.blockReset.Inv := by
  have hfront (c : Chan) : s.blockReset.front c = resetFront (s.front c) := by cases c <;> rfl
  have hphase (c : Chan) : (s.blockReset.front c).phase = .idle := by rw [hfront]; rfl
  obtain ⟨o, hlog⟩ : ∃ o, leasedLog s.log = some o := ⟨_, h.logLeased⟩
  refine State.inv_iff _ |>.mpr ⟨⟨⟨List.nodup_nil, nofun, fun _ => rfl, fun c => ?_, fun c hc => ?_, nofun, nofun,
    nofun⟩, fun c hc => ?_, ⟨nofun, nofun, fun d _ => ?_, fun d => ?_, rfl⟩,
    .ofNoneAhead rfl (fun _ => rfl) ?_ fun w hw => (h.waitsPlaced w hw).trans (Nat.le_succ _)⟩, fun c => ?_⟩
  · rw [hphase]
    exact ⟨nofun, nofun⟩
  · rw [hphase] at hc
    simp [Phase.holdsLease] at hc
  · rw [hphase] at hc
    simp at hc
  · cases d <;> exact ⟨rfl, nofun, rfl⟩
  · cases d <;> exact ⟨Nat.le_refl 1, Nat.le_of_ble_eq_true rfl⟩
  · exact leasedLog_cons.mpr ⟨o, hlog, rfl⟩
  · rw [hfront]
    exact ⟨⟨fun _ => rfl, fun _ => rfl⟩, nofun, fun _ => ⟨rfl, rfl⟩⟩

/-- A write of one front end keeps the invariant if the new front end is well formed and its phase, and its frame while
it waits or was granted the lease, stay. -/
theorem State.Inv.setFront {s : State} (h : s.Inv) {c : Chan} {f : Front} (hphase : f.phase = (s.front c).phase)
    (hrx : f.phase = .waiting ∨ f.phase = .granted → f.rx = (s.front c).rx) (hf : f.WellFormed) :
    (s.setFront c f).Inv := by
  obtain ⟨hcore, hwf⟩ := s.inv_iff.mp h
  refine State.inv_iff _ |>.mpr ⟨hcore.setFront hphase hrx, fun x => ?_⟩
  by_cases hx : x = c
  · rw [hx, State.setFront_front_self]; exact hf
  · rw [State.setFront_front_ne s f hx]; exact hwf x

/-- An arrival keeps the invariant: an empty slot of an idle, attached channel is filled (R120). -/
theorem State.arrive_inv {s : State} (h : s.Inv) (c : Chan) (f : Frame) : (s.arrive c f).Inv := by
  unfold State.arrive
  split
  · rename_i hfree
    obtain ⟨hlink, -, hbusy⟩ := hfree
    have hidle := (h.busyIff c).mp hbusy
    refine h.setFront rfl (fun hp => ?_) ⟨h.busyIff c, fun hb => ?_, fun hl => ?_⟩
    · rw [hidle] at hp
      simp at hp
    · simp [hbusy] at hb
    · simp [hlink] at hl
  · exact h

/-- An attach keeps the invariant (R132). -/
theorem State.attach_inv {s : State} (h : s.Inv) (c : Chan) : (s.attach c).Inv :=
  h.setFront rfl (fun _ => rfl) ⟨h.busyIff c, h.busyFrame c, nofun⟩

/-- A lease wait that ends by timeout keeps the invariant (R128). -/
theorem State.timeout_inv {s : State} (h : s.Inv) (c : Chan) : (s.timeout c).Inv := by
  by_cases hwaits : c ∈ s.pending
  swap
  · rw [State.timeout_other hwaits]; exact h
  obtain ⟨hcore, hwf⟩ := s.inv_iff.mp h
  have hphase : (s.front c).phase = .waiting := (h.waitingIff c).mp hwaits
  have hfronts (x : Chan) (hx : x ≠ c) : (s.timeout c).front x = s.front x := by
    rw [State.timeout_waiting hwaits, State.answersKeeping, State.respond_front_ne _ _ _ hx]; cases x <;> rfl
  have hself : (s.timeout c).front c = { s.front c with phase := .ran (some (busyResponse c)) false } := by
    rw [State.timeout_waiting hwaits, State.answersKeeping, State.respond_front_self]; cases c <;> rfl
  refine State.inv_iff _ |>.mpr ⟨?_, fun x => ?_⟩
  · refine hcore.quiet (c := c) ?_ hfronts (by rw [hphase]; rfl) (by rw [hself]; rfl)
      (fun howner => absurd hwaits (hcore.lease.ownerNot c howner)) fun w hw => ?_
    · rw [State.timeout_waiting hwaits]; cases c <;> rfl
    · rw [State.timeout_waiting hwaits, State.answersKeeping, State.respond_leaseWaits] at hw
      obtain rfl | hold := List.mem_cons.mp hw
      · exact Nat.le_refl _
      · exact h.waitsPlaced w hold
  · by_cases hx : x = c
    · subst hx
      have hnot : (s.front x).phase ≠ .idle := by rw [hphase]; nofun
      have hbusy : (s.front x).busy = true := by
        simpa using fun hb => hnot ((h.busyIff x).mp hb)
      rw [hself]
      exact .withPhase nofun hbusy (h.busyFrame x hbusy) fun hl => hnot (h.detachedEmpty x hl).2
    · rw [hfronts x hx]; exact hwf x

/-- Bus events that the Pin/Bus Controller executes keep the invariant (log entry 7). -/
theorem playEvents_inv {s : State} (h : s.Inv) (n : Nat) : (playEvents n s).Inv := by
  obtain ⟨hcore, hwf⟩ := s.inv_iff.mp h
  refine State.inv_iff _ |>.mpr ⟨hcore.playEvents n, fun c => ?_⟩
  obtain ⟨hbus, -, -⟩ := playEvents_spec n s
  rw [hbus.front]
  exact hwf c

/-- Every move keeps the invariant. -/
theorem applyMove_inv {m : Move} {s t : State} (h : s.Inv) (ht : applyMove m s = .next t) : t.Inv := by
  have hboot {o : Result} (ho : ∀ u, o = .next u → u.Inv) (ht : (if s.bootReq = true then .next s else o) = .next t) :
      t.Inv := by
    split at ht
    · exact Host.Outcome.next.inj ht ▸ h
    · exact ho t ht
  have hnext {u : State} (hu : u.Inv) (v : State) (hv : (.next u : Result) = .next v) : v.Inv :=
    Host.Outcome.next.inj hv ▸ hu
  cases m with
  | reset => exact hnext (State.blockReset_inv h) t ht
  | arrive c f => exact hboot (hnext (State.arrive_inv h c f)) ht
  | attach c => exact hboot (hnext (State.attach_inv h c)) ht
  | detach c arriving =>
    refine hboot (fun u hu => ?_) ht
    obtain ⟨v, hv, hu⟩ := andThen_next.mp hu
    have hvinv := detachStep_inv h hv
    cases arriving with
    | none => exact hnext hvinv u hu
    | some f => exact hnext (State.arrive_inv hvinv c f) u hu
  | timeout c => exact hboot (hnext (State.timeout_inv h c)) ht
  | run cs hold => exact hboot (fun u hu => runCycle_inv h hu) ht
  | bus n => exact hboot (hnext (playEvents_inv h n)) ht
  | engine =>
    refine hboot (fun u hu => ?_) ht
    simp only [engineStep, h.portEmpty] at hu
    exact hnext h u hu

/-- Taking the next move off the list, or a free one, keeps the invariant. -/
theorem nextMove_inv {s : State} (h : s.Inv) : (nextMove s).2.Inv := by
  obtain ⟨hcore, hwf⟩ := s.inv_iff.mp h
  have henv (dr : Draws) (ms : List Move) : State.Inv { s with draws := dr, sched := ms } :=
    State.inv_iff _ |>.mpr ⟨hcore.environment dr ms, fun c => State.front_environment s dr ms c ▸ hwf c⟩
  unfold nextMove
  split
  · exact henv _ _
  · exact henv _ _

/-- Settles O11: the next move is taken off the list, and every move keeps the invariant. -/
theorem stepKeepsInv : Obligations.StepKeepsInv :=
  fun _ _ h ht => applyMove_inv (nextMove_inv h) ht

end Sys2Proof.Machine
end

section
/-! SUPPORT. DAP_SWJ_Pins: what it writes, how long it waits, and what it reads (R34, R267, R268). -/

namespace Sys2Proof.Machine

/-! ## Reading the shared pins -/

/-- SWDIO, or MOSI, is driven by the block (R34). -/
def State.DioDriven (s : State) : Prop := s.pinMode = .spi ∨ (s.pinMode = .swd ∧ s.swdioOe = true)

theorem State.readPin_sck_driven {s : State} (h : s.pinMode ≠ .hiZ) : s.readPin .sck = (s.sck, s) := if_neg h

theorem State.readPin_sck_drawn {s : State} {q : Bool} {qs : List Bool} (h : s.pinMode = .hiZ)
    (hdraw : s.draws.sck = q :: qs) :
    s.readPin .sck = (q, { s with draws := { s.draws with sck := qs } }) := by
  simp [State.readPin, State.drawBit, h, hdraw]

theorem State.readPin_mosi_driven {s : State} (h : s.DioDriven) : s.readPin .mosi = (s.sdo, s) := if_pos h

theorem State.readPin_mosi_drawn {s : State} {q : Bool} {qs : List Bool} (h : ¬ s.DioDriven)
    (hdraw : s.draws.swdio = q :: qs) :
    s.readPin .mosi = (q, { s with draws := { s.draws with swdio := qs } }) := by
  have hread : s.readPin .mosi = s.drawBit .swdio := if_neg h
  simp [hread, State.drawBit, hdraw]

/-! ## The writes -/

/-- The start of a bus command leaves the owner (R221). -/
theorem State.busStart_owner (s : State) (d : DapCh) : (s.busStart d).owner = s.owner := by rw [State.busStart_eq]

/-- The writes of R267 as one update of the state `b` after the start of the bus, where one is needed. -/
theorem swjPinsWrite_eq {d : DapCh} {output select : Byte} {s b : State} {clk dio rst : Prop} {_ : Decidable clk}
    {_ : Decidable dio} {_ : Decidable rst} (howner : s.owner = some d.chan)
    (hclk : clk ↔ s.connected d = true ∧ select.getLsbD 0 = true)
    (hdio : dio ↔ s.connected d = true ∧ select.getLsbD 1 = true) (hrst : rst ↔ select.getLsbD 7 = true)
    (hb : b = if clk ∨ dio then s.busStart d else s) :
    swjPinsWrite d output select s = { b with
      sck := if clk then output.getLsbD 0 else b.sck
      swdioOe := if dio then true else b.swdioOe
      sdo := if dio then output.getLsbD 1 else b.sdo
      resetN := if rst then output.getLsbD 7 else b.resetN
      log := gains (some d.chan)
        ((if clk then [.pin .sck (output.getLsbD 0)] else []) ++
          (if dio then [.swdio true (output.getLsbD 1)] else []) ++
          (if rst then [.pin .resetN (output.getLsbD 7)] else [])) b.log } := by
  have hstart : (if s.connected d = true ∧ (select.getLsbD 0 = true ∨ select.getLsbD 1 = true) then s.busStart d else s) =
      b := by
    rw [hb]
    exact if_congr (by rw [hclk, hdio, and_or_left]) rfl rfl
  have hbo : b.owner = some d.chan := by
    rw [hb]
    split
    · rw [State.busStart_owner, howner]
    · exact howner
  simp only [swjPinsWrite, hstart, ← hclk, ← hdio, ← hrst, ← hbo]
  by_cases h0 : clk <;> by_cases h1 : dio <;> by_cases h7 : rst <;>
    simp [h0, h1, h7, State.logEv, State.setSwdio, State.setPin, gains, outPin]

/-! ## The wait -/

theorem pinWaitBlocked_iff (output select : Byte) (s : State) : pinWaitBlocked output select s = true ↔
    (select.getLsbD 0 = true ∧ s.pinMode ≠ .hiZ ∧ s.sck ≠ output.getLsbD 0) ∨
      (select.getLsbD 1 = true ∧ s.DioDriven ∧ s.sdo ≠ output.getLsbD 1) ∨
      (select.getLsbD 7 = true ∧ s.resetN ≠ output.getLsbD 7) := by
  simp [pinWaitBlocked, State.DioDriven, and_assoc, or_assoc]

theorem pinWaitOpen_iff (select : Byte) (s : State) : pinWaitOpen select s = true ↔
    (select.getLsbD 0 = true ∧ ¬ s.pinMode ≠ .hiZ) ∨ (select.getLsbD 1 = true ∧ ¬ s.DioDriven) := by
  simp [pinWaitOpen, State.DioDriven, imp_iff_not_or]

/-- The wait of R268 as one update: no wait, or one event of an elapsed time in its bound. -/
theorem pinWait_eq {output select : Byte} {wait : Word} {s : State} {c : Chan} (howner : s.owner = some c)
    (hwait : wait ≠ 0) : ∃ (e : Nat) (dr : Draws),
      pinWait output select wait s = { s with draws := dr, log := gains (some c) [.wait .pinwait e] s.log } ∧
      e ≤ min wait.toNat pinWaitCap ∧
      (pinWaitBlocked output select s = true → e = min wait.toNat pinWaitCap ∧ dr = s.draws) ∧
      (pinWaitBlocked output select s = false → pinWaitOpen select s = false → e = 0 ∧ dr = s.draws) ∧
      (pinWaitBlocked output select s = false → pinWaitOpen select s = true → ∀ x xs, s.draws.elapsed = x :: xs →
        e = min x (min wait.toNat pinWaitCap) ∧ dr = { s.draws with elapsed := xs }) := by
  simp only [pinWait, if_neg hwait]
  split
  · rename_i hblocked
    refine ⟨_, s.draws, ?_, Nat.le_refl _, fun _ => ⟨rfl, rfl⟩, fun h => ?_, fun h => ?_⟩
    · simp [State.wait, State.logEv, gains, howner]
    all_goals simp [hblocked] at h
  · rename_i hblocked
    split
    · rename_i hopen
      refine ⟨_, (s.drawElapsed (min wait.toNat pinWaitCap)).2.draws, ?_, State.drawElapsed_le s _,
        fun h => absurd h hblocked, fun _ h => ?_, fun _ _ x xs hx => ?_⟩
      · obtain ⟨dr, hdraw⟩ : ∃ dr, (s.drawElapsed (min wait.toNat pinWaitCap)).2 = { s with draws := dr } :=
          ⟨_, State.drawElapsed_eq s _⟩
        simp [hdraw, State.wait, State.logEv, gains, howner]
      · simp [hopen] at h
      · simp [State.drawElapsed, hx]
    · rename_i hopen
      refine ⟨0, s.draws, ?_, Nat.zero_le _, fun h => absurd h hblocked, fun _ _ => ⟨rfl, rfl⟩,
        fun _ h => absurd h hopen⟩
      simp [State.wait, State.logEv, gains, howner]

/-- The wait writes the draws and LOG alone. -/
theorem pinWait_frame (output select : Byte) (wait : Word) (s : State) : pinWait output select wait s =
    { s with draws := (pinWait output select wait s).draws, log := (pinWait output select wait s).log } := by
  simp only [pinWait]
  split
  · rfl
  · split
    · rfl
    · split
      · rw [State.drawElapsed_eq]; rfl
      · rfl

/-- The input byte of R99, bit by bit. -/
theorem pinInput_eq (sck swdio resetN : Bool) : pinInput sck swdio resetN =
    (if sck then 0x01 else 0x00) ||| (if swdio then 0x02 else 0x00) ||| (if resetN then 0x80 else 0x00) := by
  revert sck swdio resetN
  decide

/-- Settles O50: the command runs on the leased state; its writes, its wait and its reads are the three updates above. -/
theorem swjPinsDrivesAndReads : Obligations.SwjPinsDrivesAndReads := by
  intro s d output select wait hcan clk dio rst b u sckDriven dioDriven blocked undriven
  have howner : (s.leased d.chan).owner = some d.chan := hcan.leased_owner
  have hconn : (s.leased d.chan).connected d = true ↔ (s.dap d).dapState ≠ .disconnected := by
    simp [State.connected]
  have hu : swjPinsWrite d output select (s.leased d.chan) = u :=
    swjPinsWrite_eq howner (by rw [hconn]) (by rw [hconn]) Iff.rfl rfl
  have huowner : u.owner = some d.chan := by
    rw [← hu, (swjPinsWrite_busAction d output select _).owner, howner]
  have hblocked : pinWaitBlocked output select u = true ↔ blocked := pinWaitBlocked_iff output select u
  have hundriven : pinWaitOpen select u = true ↔ undriven := pinWaitOpen_iff select u
  have hframe := pinWait_frame output select wait u
  refine ⟨pinWait output select wait u, fun h => if_pos h, fun h => ?_, ?_⟩
  · obtain ⟨e, dr, heq, hle, hblock, hclosed, hopen⟩ := pinWait_eq (output := output) (select := select) huowner h
    simp only [← Bool.not_eq_true, hblocked, hundriven] at hblock hclosed hopen
    exact ⟨e, dr, heq, hle, hblock, hclosed, hopen⟩
  · have hexec : exec (.dapSwjPins d output select wait) s = .next ((((pinWait output select wait u).readPin .sck).2.readPin
        .mosi).2.answers d.chan [0x10, pinInput ((pinWait output select wait u).readPin .sck).1
          (((pinWait output select wait u).readPin .sck).2.readPin .mosi).1
          (((pinWait output select wait u).readPin .sck).2.readPin .mosi).2.resetN]) := by
      simp only [exec, execDapSwjPins, leasedCommand, hcan.underLease, hu]
      rfl
    generalize pinWait output select wait u = v at hframe hexec
    intro x y
    have hmode : v.pinMode = u.pinMode := by rw [hframe]
    have hx : x.2 = { v with draws := x.2.draws } := v.readPin_eq .sck
    have hy : y.2 = { x.2 with draws := y.2.draws } := x.2.readPin_eq .mosi
    have hxdriven : x.2.DioDriven ↔ dioDriven := by
      rw [hx, hframe]; rfl
    have hreset : y.2.resetN = u.resetN := by rw [hy, hx, hframe]
    refine ⟨?_, fun h => ?_, fun h => ?_, fun h q qs hq => ?_, fun h q qs hq => ?_, ?_⟩
    · rw [← hreset, ← pinInput_eq]; exact hexec
    · have hsck : v.sck = u.sck := by rw [hframe]
      rw [← hsck]
      exact State.readPin_sck_driven (hmode ▸ h)
    · have hsdo : x.2.sdo = u.sdo := by rw [hx, hframe]
      rw [← hsdo]
      exact State.readPin_mosi_driven (hxdriven.mpr h)
    · exact State.readPin_sck_drawn (hmode ▸ not_not.mp h) hq
    · exact State.readPin_mosi_drawn (fun hd => h (hxdriven.mp hd)) hq
    · rw [hy, hx]

end Sys2Proof.Machine
end

section
/-! SUPPORT. EXCHANGE reads the MISO levels: what the bits of a byte draw is the byte the controller answers (R66, R153,
R162). -/

namespace Sys2Proof.Machine

theorem gains_cons (o : Option Chan) (k : EventKind) (ks : List EventKind) (log : List Event) :
    gains o (k :: ks) log = gains o ks (⟨o, k⟩ :: log) := by
  simp [gains]

/-- The response of a command that has run (R222). -/
@[simp] theorem State.respond_response (s : State) (c : Chan) (r : Option Frame) (b : Bool) :
    (s.respond c r b).response c = r := by
  simp [State.response]

/-- The eight wire bits of a byte, bit 7 first (R66). -/
theorem spiWireBits_eq (b : Byte) : spiWireBits b =
    [b.getLsbD 7, b.getLsbD 6, b.getLsbD 5, b.getLsbD 4, b.getLsbD 3, b.getLsbD 2, b.getLsbD 1, b.getLsbD 0] := rfl

/-- A byte read from its own wire bits is the byte. -/
@[simp] theorem ofSpiWireBits_spiWireBits (b : Byte) : ofSpiWireBits (spiWireBits b) = b := by
  simp [ofSpiWireBits, spiWireBits]

theorem spiWireBits_length (b : Byte) : (spiWireBits b).length = 8 := rfl

/-- As many bit cycles as there are levels sample those levels, in order (R153). -/
theorem spiBits_reads {bs ms rest : List Bool} {s : State} (hlen : ms.length = bs.length)
    (hmiso : s.draws.miso = ms ++ rest) : (spiBits bs s).1 = ms ∧ (spiBits bs s).2.draws.miso = rest := by
  induction bs generalizing ms s with
  | nil =>
    obtain rfl := List.length_eq_zero_iff.mp hlen
    exact ⟨rfl, hmiso⟩
  | cons b bs ih =>
    obtain ⟨m, ms, rfl⟩ := List.exists_cons_of_length_eq_add_one hlen
    have hdraw : ({ s with sdo := b, sck := true } : State).drawBit .miso =
        (m, { s with sdo := b, sck := true, draws := { s.draws with miso := ms ++ rest } }) := by
      simp [State.drawBit, hmiso]
    simp only [spiBits, hdraw]
    obtain ⟨hread, hleft⟩ := ih (ms := ms) (s := { s with
      sdo := b, sck := false, draws := { s.draws with miso := ms ++ rest } }) (by simpa using hlen) rfl
    exact ⟨by rw [hread], hleft⟩

/-- A byte exchange answers the byte whose wire bits are the next MISO levels, and records it (R153). -/
theorem spiXferByte_reads {tx b : Byte} {rest : List Bool} {s : State} (hmiso : s.draws.miso = spiWireBits b ++ rest) :
    (spiXferByte tx s).1 = b ∧ (spiXferByte tx s).2.draws.miso = rest ∧
      (spiXferByte tx s).2.log = ⟨s.owner, .spi tx b⟩ :: s.log := by
  obtain ⟨hread, hleft⟩ := spiBits_reads (bs := spiWireBits tx) (spiWireBits_length b) hmiso
  have hframe : SameButSpi s (spiBits (spiWireBits tx) s).2 := spiBits_spi _ s
  have howner : (spiBits (spiWireBits tx) s).2.owner = s.owner := by rw [hframe]
  have hlog : (spiBits (spiWireBits tx) s).2.log = s.log := by rw [hframe]
  refine ⟨?_, hleft, ?_⟩
  · simp only [spiXferByte, hread, ofSpiWireBits_spiWireBits]
  · simp only [spiXferByte, hread, ofSpiWireBits_spiWireBits, State.logEv_log, howner, hlog]

/-- The exchanges of a frame answer the bytes whose wire bits are the next MISO levels, and record them in order
(R162). -/
theorem spiExchangeBytes_reads {data rx : List Byte} {rest : List Bool} {s : State} (hlen : rx.length = data.length)
    (hmiso : s.draws.miso = rx.flatMap spiWireBits ++ rest) :
    (spiExchangeBytes data s).1 = rx ∧ (spiExchangeBytes data s).2.draws.miso = rest ∧
      (spiExchangeBytes data s).2.log = gains s.owner (List.zipWith EventKind.spi data rx) s.log := by
  induction data generalizing rx s with
  | nil =>
    obtain rfl := List.length_eq_zero_iff.mp hlen
    exact ⟨rfl, hmiso, rfl⟩
  | cons tx txs ih =>
    obtain ⟨b, rx, rfl⟩ := List.exists_cons_of_length_eq_add_one hlen
    rw [List.flatMap_cons, List.append_assoc] at hmiso
    obtain ⟨hbyte, hleft, hlog⟩ := spiXferByte_reads (tx := tx) hmiso
    obtain ⟨hbytes, hend, hlogs⟩ := ih (by simpa using hlen) hleft
    rw [(spiXferByte_wire tx s).owner, hlog] at hlogs
    refine ⟨by simp only [spiExchangeBytes, hbyte, hbytes], hend, ?_⟩
    rw [List.zipWith_cons_cons, gains_cons]
    exact hlogs

/-- An EXCHANGE inside the transaction of the bridge runs its bytes and answers what they read (R162). -/
theorem execSpiExchange_inTransaction {s : State} (data : List Byte) (htxn : s.brTxn = true)
    (howner : s.owner = some .ch0) (hmode : s.pinMode = .spi) :
    exec (.spiExchange data) s = .next ((spiExchangeBytes data s).2.respond .ch0
      (some (bridgeReply (spiExchangeBytes data s).1)) false) := by
  simp [exec, execSpiExchange, htxn, howner, hmode]

/-- Settles O29: the listed MISO levels are the wire bits of `rx`, which the exchanges read back byte by byte. -/
theorem exchangeReadsMiso : Obligations.ExchangeReadsMiso := by
  intro s data rx rest htxn howner hmode hlen hmiso
  simp only [← spiWireBits_eq] at hmiso
  obtain ⟨hbytes, hleft, hlog⟩ := spiExchangeBytes_reads hlen hmiso
  refine ⟨_, execSpiExchange_inTransaction data htxn howner hmode, ?_, ?_, ?_⟩
  · rw [State.respond_response, hbytes]
    rfl
  · rw [State.respond_draws, hleft]
  · rw [State.respond_log, hlog, howner]

end Sys2Proof.Machine
end

section
/-! SUPPORT. One SWD packet as one update: the events it puts on the wire and the draws it samples (R191 to R194,
R197). -/

namespace Sys2Proof.Machine

/-! ## Runs of the wire -/

/-- From `s` to `t` the owner puts the events `ks` on the wire, oldest first, and samples the SWDIO draws `bs`; a high
SCK stays high. -/
structure WireRun (s t : State) (ks : List EventKind) (bs : List Bool) : Prop where
  frame : t = { s with
    sck := t.sck, sdo := t.sdo, swdioOe := t.swdioOe, log := gains s.owner ks s.log
    draws := { s.draws with swdio := t.draws.swdio } }
  sampled : s.draws.swdio = bs ++ t.draws.swdio
  sckHigh : s.sck = true → t.sck = true

namespace WireRun

variable {s t u : State} {ks ls : List EventKind} {bs cs rest : List Bool}

theorem refl (s : State) : WireRun s s [] [] := ⟨rfl, rfl, id⟩

theorem owner (h : WireRun s t ks bs) : t.owner = s.owner := by rw [h.frame]

theorem log (h : WireRun s t ks bs) : t.log = gains s.owner ks s.log := by rw [h.frame]

theorem dap (h : WireRun s t ks bs) (d : DapCh) : t.dap d = s.dap d := by rw [h.frame]; cases d <;> rfl

/-- What is left of the draws. -/
theorem left (h : WireRun s t ks bs) (hdraws : s.draws.swdio = bs ++ rest) : t.draws.swdio = rest :=
  List.append_cancel_left (h.sampled.symm.trans hdraws)

theorem trans (h : WireRun s t ks bs) (k : WireRun t u ls cs) : WireRun s u (ks ++ ls) (bs ++ cs) where
  frame := by
    have kf := k.frame
    rw [h.log, h.owner, ← gains_append] at kf
    rw [h.frame] at kf
    exact kf
  sampled := by rw [h.sampled, k.sampled, List.append_assoc]
  sckHigh := k.sckHigh ∘ h.sckHigh

/-- A further run that happens only on a condition. -/
theorem thenIf {p q : Prop} [Decidable p] [Decidable q] (hpq : p ↔ q) (h : WireRun s t ks bs)
    (k : WireRun t u ls []) : WireRun s (if p then u else t) (ks ++ if q then ls else []) bs := by
  by_cases hp : p
  · rw [if_pos hp, if_pos (hpq.mp hp)]
    simpa using h.trans k
  · rw [if_neg hp, if_neg (mt hpq.mpr hp)]
    simpa using h

/-- A run that leaves the line at rest is the update of R210. -/
theorem afterWire (h : WireRun s t ks bs) (hdraws : s.draws.swdio = bs ++ rest) (hsck : t.sck = true)
    (hsdo : t.sdo = true) (hoe : t.swdioOe = true) : t = s.afterWire ks rest := by
  have hleft := h.left hdraws
  rw [h.frame, hsck, hsdo, hoe, hleft]
  rfl

theorem setSwdio (s : State) (oe l : Bool) : WireRun s (s.setSwdio oe l) [.swdio oe l] [] := ⟨rfl, rfl, id⟩

theorem driveBit (s : State) (b : Bool) : WireRun s (s.driveBit b) (drives [b]) [] := ⟨rfl, rfl, fun _ => rfl⟩

theorem clockCycle (s : State) : WireRun s s.clockCycle (clocks 1) [] := ⟨rfl, rfl, fun _ => rfl⟩

theorem driveBits (bs : List Bool) (s : State) : WireRun s (driveBits bs s) (drives bs) [] := by
  induction bs generalizing s with
  | nil => exact .refl s
  | cons b bs ih => exact (driveBit s b).trans (ih _)

theorem clockCycles (n : Nat) (s : State) : WireRun s (clockCycles n s) (clocks n) [] := by
  induction n generalizing s with
  | zero => exact .refl s
  | succ n ih => exact (clockCycle s).trans (ih _)

/-- A sampled cycle reads the next draw (R192). -/
theorem sampleBit {b : Bool} (hdraws : s.draws.swdio = b :: rest) :
    s.sampleBit.1 = b ∧ WireRun s s.sampleBit.2 (samples [b]) [b] := by
  have hdraw : ({ s with sck := false } : State).drawBit .swdio =
      (b, { s with sck := false, draws := { s.draws with swdio := rest } }) := by
    simp [State.drawBit, hdraws]
  simp only [State.sampleBit, hdraw]
  exact ⟨trivial, rfl, hdraws, fun _ => rfl⟩

/-- As many sampled cycles as there are bits read those bits, in order. -/
theorem sampleBits {n : Nat} (hlen : bs.length = n) (hdraws : s.draws.swdio = bs ++ rest) :
    (sampleBits n s).1 = bs ∧ WireRun s (sampleBits n s).2 (samples bs) bs := by
  induction n generalizing bs s with
  | zero =>
    obtain rfl := List.length_eq_zero_iff.mp hlen
    exact ⟨rfl, .refl s⟩
  | succ n ih =>
    obtain ⟨b, bs, rfl⟩ := List.exists_cons_of_length_eq_add_one hlen
    obtain ⟨hbit, hrun⟩ := sampleBit (s := s) hdraws
    obtain ⟨hbits, hruns⟩ := ih (by simpa using hlen) (hrun.left hdraws)
    exact ⟨by simp only [Machine.sampleBits, hbit, hbits], hrun.trans hruns⟩

/-- The turnaround, and SWDIO driven high again (R196, R197). -/
theorem turnHost (n : Nat) (s : State) :
    WireRun s ((Machine.clockCycles n s).setSwdio true true) (clocks n ++ [.swdio true true]) [] :=
  (clockCycles n s).trans (setSwdio _ _ _)

end WireRun

/-! ## The phases of a packet -/

/-- The eight cycles of a request (R102). -/
theorem requestBits_eq (r : Nibble) : requestBits r =
    [true, r.getLsbD 0, r.getLsbD 1, r.getLsbD 2, r.getLsbD 3,
      r.getLsbD 0 ^^ r.getLsbD 1 ^^ r.getLsbD 2 ^^ r.getLsbD 3, false, true] := by
  revert r
  decide

/-- The events of a request, up to the three ACK bits `as` (R197). -/
def requestEvents (x : DapRegs) (r : Nibble) (as : List Bool) : List EventKind :=
  drives (requestBits r) ++ [.swdio false true] ++ clocks x.turnaround ++ samples as

/-- The request of a packet samples the ACK, and leaves SCK high (R197). -/
theorem swdRequest_run {d : DapCh} {s : State} {as rest : List Bool} (r : Nibble) (hlen : as.length = 3)
    (hdraws : s.draws.swdio = as ++ rest) :
    (swdRequest d r s).1 = as ∧ WireRun s (swdRequest d r s).2 (requestEvents (s.dap d) r as) as ∧
      (swdRequest d r s).2.sck = true := by
  have hdrive := WireRun.driveBits (requestBits r) s
  have hpark : (driveBits (requestBits r) s).sdo = true := by
    rw [requestBits_eq]
    rfl
  have hrelease := hdrive.trans (.setSwdio _ false true)
  have hturn := hrelease.trans (.clockCycles (s.dap d).turnaround _)
  obtain ⟨hread, hsample⟩ := WireRun.sampleBits hlen (hturn.left (bs := []) hdraws)
  have heq : swdRequest d r s = sampleBits 3
      (clockCycles (s.dap d).turnaround ((driveBits (requestBits r) s).setSwdio false true)) := by
    simp only [swdRequest, hpark]
  rw [heq]
  exact ⟨hread, hturn.trans hsample, rfl⟩

/-- The events after an OK transfer (R202). -/
def idleEvents (x : DapRegs) : List EventKind :=
  drives (List.replicate x.idleCycles.toNat false) ++ [.swdio true true]

theorem swdIdle_run (d : DapCh) (s : State) : WireRun s (swdIdle d s) (idleEvents (s.dap d)) [] :=
  (WireRun.driveBits _ s).trans (.setSwdio _ _ _)

/-- The events of the data phase of an OK read that samples `ds` (R197). -/
def readEvents (x : DapRegs) (ds : List Bool) : List EventKind :=
  samples ds ++ clocks x.turnaround ++ [.swdio true true] ++ idleEvents x

/-- The data phase of an OK read samples 32 data bits and the parity bit (R197, R199). -/
theorem swdReadPhase_run {d : DapCh} {s : State} {vs rest : List Bool} {p : Bool} (hlen : vs.length = 32)
    (hdraws : s.draws.swdio = vs ++ p :: rest) :
    (swdReadPhase d s).1 = ⟨if p = xor32 (ofBits 32 vs) then ackOk else ackParity, ofBits 32 vs⟩ ∧
      WireRun s (swdReadPhase d s).2 (readEvents (s.dap d) (vs ++ [p])) (vs ++ [p]) := by
  obtain ⟨hword, hdata⟩ := WireRun.sampleBits hlen hdraws
  obtain ⟨hbit, hparity⟩ := WireRun.sampleBit (hdata.left hdraws)
  have hread := hdata.trans hparity
  have hturn := hread.trans (.turnHost (s.dap d).turnaround _)
  have hidle := hturn.trans (swdIdle_run d _)
  rw [hturn.dap d] at hidle
  refine ⟨by simp only [swdReadPhase, hword, hbit], ?_⟩
  simpa [swdReadPhase, readEvents, samples] using hidle

/-- The events of the data phase of an OK write of `w` (R197). -/
def writeEvents (x : DapRegs) (w : Word) : List EventKind :=
  clocks x.turnaround ++ [.swdio true true] ++ drives (bitsOf w ++ [xor32 w]) ++ idleEvents x

/-- The data phase of an OK write drives the word and its parity (R197). -/
theorem swdWritePhase_run (d : DapCh) (w : Word) (s : State) :
    (swdWritePhase d w s).1 = ⟨ackOk, 0⟩ ∧
      WireRun s (swdWritePhase d w s).2 (writeEvents (s.dap d) w) [] := by
  have hturn := WireRun.turnHost (s.dap d).turnaround s
  have hdata := (hturn.trans (.driveBits (bitsOf w) _)).trans (.driveBit _ (xor32 w))
  have hidle := hdata.trans (swdIdle_run d _)
  rw [hdata.dap d] at hidle
  refine ⟨rfl, ?_⟩
  simpa [swdWritePhase, writeEvents, drives] using hidle

/-- The events after a WAIT or FAULT (R201). -/
def nackEvents (x : DapRegs) (r : Nibble) : List EventKind :=
  (if x.dataPhase = true ∧ r.getLsbD 1 = true then clocks 33 else []) ++ clocks x.turnaround ++ [.swdio true true] ++
    (if x.dataPhase = true ∧ r.getLsbD 1 = false then drives (List.replicate 33 false) else []) ++ [.swdio true true]

theorem swdNackPhase_run (d : DapCh) (r : Nibble) (s : State) :
    WireRun s (swdNackPhase d r s) (nackEvents (s.dap d) r) [] := by
  have hread := WireRun.thenIf (p := ((s.dap d).dataPhase && r.getLsbD 1) = true) Bool.and_eq_true_iff (.refl s)
    (.clockCycles 33 s)
  have hturn := hread.trans (.turnHost (s.dap d).turnaround _)
  have hwrite := hturn.thenIf (p := ((s.dap d).dataPhase && !r.getLsbD 1) = true)
    (by rw [Bool.and_eq_true_iff, Bool.not_eq_true']) (.driveBits (List.replicate 33 false) _)
  have hrest := hwrite.trans (.setSwdio _ true true)
  have hsame : (if ((s.dap d).dataPhase && r.getLsbD 1) = true then clockCycles 33 s else s).dap d = s.dap d :=
    hread.dap d
  simpa [swdNackPhase, nackEvents, hsame] using hrest

/-- The back-off after a protocol error (R197). -/
theorem swdBackOff_run (d : DapCh) (s : State) :
    WireRun s (swdBackOff d s) (clocks ((s.dap d).turnaround + 33) ++ [.swdio true true]) [] :=
  .turnHost _ s

/-! ## The packet -/

section

variable {x : DapRegs} {r : Nibble} {w : Word} {bs : List Bool}

theorem packetEvents_read (hack : ackOf (bs.take 3) = ackOk) (hread : r.getLsbD 1 = true) :
    packetEvents x r w bs = requestEvents x r (bs.take 3) ++ readEvents x (bs.drop 3) := by
  simp only [packetEvents, requestEvents, requestBits_eq, readEvents, idleEvents, hack, hread, if_true,
    List.append_assoc]

theorem packetEvents_write (hack : ackOf (bs.take 3) = ackOk) (hwrite : r.getLsbD 1 = false) :
    packetEvents x r w bs = requestEvents x r (bs.take 3) ++ writeEvents x w := by
  simp only [packetEvents, requestEvents, requestBits_eq, writeEvents, idleEvents, hack, hwrite, if_true,
    Bool.false_eq_true, if_false, List.append_assoc]

theorem packetEvents_nack (hok : ackOf (bs.take 3) ≠ ackOk)
    (hack : ackOf (bs.take 3) = ackWait ∨ ackOf (bs.take 3) = ackFault) :
    packetEvents x r w bs = requestEvents x r (bs.take 3) ++ nackEvents x r := by
  simp only [packetEvents, requestEvents, requestBits_eq, nackEvents, hok, hack, if_true, if_false, List.append_assoc]

theorem packetEvents_backOff (hok : ackOf (bs.take 3) ≠ ackOk)
    (hack : ¬ (ackOf (bs.take 3) = ackWait ∨ ackOf (bs.take 3) = ackFault)) :
    packetEvents x r w bs =
      requestEvents x r (bs.take 3) ++ (clocks (x.turnaround + 33) ++ [.swdio true true]) := by
  simp only [packetEvents, requestEvents, requestBits_eq, hok, hack, if_false, List.append_assoc]

theorem packetResult_read (hack : ackOf (bs.take 3) = ackOk) (hread : r.getLsbD 1 = true) :
    packetResult r bs = ⟨if bs.getD 35 false = xor32 (ofBits 32 ((bs.drop 3).take 32)) then ackOk else ackParity,
      ofBits 32 ((bs.drop 3).take 32)⟩ := by
  simp only [packetResult, hack, hread, and_self, if_true]

/-- A packet that is no OK read answers its ACK and no word (R197). -/
theorem packetResult_other (hno : ¬ (ackOf (bs.take 3) = ackOk ∧ r.getLsbD 1 = true)) :
    packetResult r bs = ⟨ackOf (bs.take 3), 0⟩ := by
  simp only [packetResult, if_neg hno]

theorem PacketBits.length_take (h : PacketBits r bs) : (bs.take 3).length = 3 := by
  have hlong : 3 ≤ bs.length := by
    rw [h]
    split <;> omega
  rw [List.length_take, Nat.min_eq_left hlong]

/-- After the ACK of an OK read a packet samples 32 data bits and a parity bit (R197). -/
theorem PacketBits.drop_read (h : PacketBits r bs) (hack : ackOf (bs.take 3) = ackOk) (hread : r.getLsbD 1 = true) :
    ((bs.drop 3).take 32).length = 32 ∧ bs.drop 3 = (bs.drop 3).take 32 ++ [bs.getD 35 false] := by
  have hlen : bs.length = 36 := by rw [h, if_pos ⟨hack, hread⟩]
  have hlast : (bs.drop 3).drop 32 = [bs.getD 35 false] := by
    rw [List.drop_drop, List.drop_eq_getElem_cons (by omega), List.drop_of_length_le (by omega)]
    simp [List.getD_eq_getElem?_getD, hlen]
  exact ⟨by simp [hlen], by rw [← hlast, List.take_append_drop]⟩

/-- A packet that is no OK read samples its ACK alone (R197). -/
theorem PacketBits.take_other (h : PacketBits r bs) (hno : ¬ (ackOf (bs.take 3) = ackOk ∧ r.getLsbD 1 = true)) :
    bs.take 3 = bs :=
  List.take_of_length_le (by rw [h, if_neg hno])

end

/-- A packet answers the result of the bits it samples, and is one update of the wire (R197, R199, R201). -/
theorem swdXfer_eq {s : State} {r : Nibble} {bs rest : List Bool} (d : DapCh) (w : Word) (hbits : PacketBits r bs)
    (hdraws : s.draws.swdio = bs ++ rest) :
    swdXfer d r w s = (packetResult r bs, s.afterWire (packetEvents (s.dap d) r w bs) rest) := by
  have hsplit : s.draws.swdio = bs.take 3 ++ (bs.drop 3 ++ rest) := by
    rw [← List.append_assoc, List.take_append_drop, hdraws]
  obtain ⟨hack, hreq, hsck⟩ := swdRequest_run (d := d) r hbits.length_take hsplit
  have hdap : (swdRequest d r s).2.dap d = s.dap d := hreq.dap d
  have hrest {t : State} {ks : List EventKind} {cs : List Bool} (hphase : WireRun (swdRequest d r s).2 t ks cs)
      (hcs : s.draws.swdio = bs.take 3 ++ cs ++ rest) (hsdo : t.sdo = true) (hoe : t.swdioOe = true) :
      t = s.afterWire (requestEvents (s.dap d) r (bs.take 3) ++ ks) rest :=
    (hreq.trans hphase).afterWire hcs (hphase.sckHigh hsck) hsdo hoe
  have hshort (hno : ¬ (ackOf (bs.take 3) = ackOk ∧ r.getLsbD 1 = true)) :
      s.draws.swdio = bs.take 3 ++ [] ++ rest := by
    rw [List.append_nil, hbits.take_other hno, hdraws]
  simp only [swdXfer, hack]
  by_cases hok : ackOf (bs.take 3) = ackOk
  · rw [if_pos hok]
    by_cases hread : r.getLsbD 1 = true
    · obtain ⟨hlen, hdata⟩ := hbits.drop_read hok hread
      have hleft := hreq.left hsplit
      rw [hdata, List.append_assoc] at hleft
      obtain ⟨hresult, hphase⟩ := swdReadPhase_run (d := d) hlen hleft
      rw [← hdata, hdap] at hphase
      rw [if_pos hread, packetResult_read hok hread, packetEvents_read hok hread, ← hresult]
      exact Prod.ext rfl (hrest hphase (by rw [List.take_append_drop, hdraws]) rfl rfl)
    · obtain ⟨hresult, hphase⟩ := swdWritePhase_run d w (swdRequest d r s).2
      have hno : ¬ (ackOf (bs.take 3) = ackOk ∧ r.getLsbD 1 = true) := fun h => hread h.2
      rw [hdap] at hphase
      rw [if_neg hread, packetResult_other hno, packetEvents_write hok (Bool.eq_false_of_not_eq_true hread), hok,
        ← hresult]
      exact Prod.ext rfl (hrest hphase (hshort hno) rfl rfl)
  · have hno : ¬ (ackOf (bs.take 3) = ackOk ∧ r.getLsbD 1 = true) := fun h => hok h.1
    rw [if_neg hok, packetResult_other hno]
    by_cases hnack : ackOf (bs.take 3) = ackWait ∨ ackOf (bs.take 3) = ackFault
    · have hphase := swdNackPhase_run d r (swdRequest d r s).2
      rw [hdap] at hphase
      rw [if_pos hnack, packetEvents_nack hok hnack]
      exact Prod.ext rfl (hrest hphase (hshort hno) rfl rfl)
    · have hphase := swdBackOff_run d (swdRequest d r s).2
      rw [hdap] at hphase
      rw [if_neg hnack, packetEvents_backOff hok hnack]
      exact Prod.ext rfl (hrest hphase (hshort hno) rfl rfl)

end Sys2Proof.Machine
end

section
/-! SUPPORT. A batch of register writes: the accesses of a batch one after another, and the RDBUFF read that confirms
the writes (R203, R231, R235, R238). -/

namespace Sys2Proof.Machine

/-! ## Runs of accesses -/

/-- From `s` to `t` the accesses of `d` put the events `ks` on the wire, oldest first, and sample the SWDIO draws
`bs`. -/
structure AccessRun (d : DapCh) (s t : State) (ks : List EventKind) (bs : List Bool) : Prop where
  frame : SameButAccess d s t
  log : t.log = gains s.owner ks s.log
  sampled : s.draws.swdio = bs ++ t.draws.swdio

/-- Accesses write XFER_FSM and the batch registers alone of the registers of their channel. -/
theorem SameButAccess.dap {d : DapCh} {s t : State} (h : SameButAccess d s t) :
    t.dap d = { s.dap d with xferFsm := (t.dap d).xferFsm, batch := (t.dap d).batch } :=
  (congrArg (·.dap d) h).trans (State.setDap_dap_self ..)

theorem SameButAccess.owner {d : DapCh} {s t : State} (h : SameButAccess d s t) : t.owner = s.owner :=
  (congrArg State.owner h).trans (State.setDap_owner ..)

/-- The events of a packet depend on TURNAROUND, IDLE_CYCLES and DATA_PHASE alone (R197). -/
theorem packetEvents_congr {x y : DapRegs} (hturn : x.turnaround = y.turnaround) (hidle : x.idleCycles = y.idleCycles)
    (hphase : x.dataPhase = y.dataPhase) : packetEvents x = packetEvents y := by
  funext r w bs
  simp only [packetEvents, hturn, hidle, hphase]

namespace AccessRun

variable {d : DapCh} {s t u : State} {ks ls : List EventKind} {bs cs rest : List Bool}

theorem refl (d : DapCh) (s : State) : AccessRun d s s [] [] := ⟨(SameButWire.refl s).access d, rfl, rfl⟩

theorem trans (h : AccessRun d s t ks bs) (k : AccessRun d t u ls cs) : AccessRun d s u (ks ++ ls) (bs ++ cs) where
  frame := h.frame.trans k.frame
  log := by rw [k.log, h.log, h.frame.owner, gains_append]
  sampled := by rw [h.sampled, k.sampled, List.append_assoc]

/-- What is left of the draws. -/
theorem left (h : AccessRun d s t ks bs) (hdraws : s.draws.swdio = bs ++ rest) : t.draws.swdio = rest :=
  List.append_cancel_left (h.sampled.symm.trans hdraws)

theorem packetEvents (h : AccessRun d s t ks bs) : packetEvents (t.dap d) = packetEvents (s.dap d) := by
  rw [h.frame.dap]
  rfl

theorem retryCount (h : AccessRun d s t ks bs) : (t.dap d).retryCount = (s.dap d).retryCount := by rw [h.frame.dap]

theorem setFsm (h : AccessRun d s t ks bs) (x : XferFsm) : AccessRun d s (t.setFsm d x) ks bs where
  frame := h.frame.trans (setFsm_access d t x)
  log := by rw [State.setFsm_log, h.log]
  sampled := by rw [State.setFsm_draws, h.sampled]

theorem setBatch (h : AccessRun d s t ks bs) (b : Batch) : AccessRun d s (t.setBatch d b) ks bs where
  frame := h.frame.trans (setBatch_access d t b)
  log := by rw [State.setBatch_log, h.log]
  sampled := by rw [State.setBatch_draws, h.sampled]

theorem setCheckWrite (h : AccessRun d s t ks bs) (b : Bool) : AccessRun d s (t.setCheckWrite d b) ks bs :=
  h.setBatch _

theorem countOne (h : AccessRun d s t ks bs) : AccessRun d s (t.countOne d) ks bs := h.setBatch _

/-- One packet (R197). -/
theorem packet (r : Nibble) (w : Word) (hbits : PacketBits r bs) (hdraws : s.draws.swdio = bs ++ rest) :
    AccessRun d s (swdXfer d r w s).2 (Machine.packetEvents (s.dap d) r w bs) bs :=
  ⟨(swdXfer_wire d r w s).access d, by rw [swdXfer_eq d w hbits hdraws]; rfl,
    by rw [swdXfer_eq d w hbits hdraws, hdraws]; rfl⟩

end AccessRun

/-! ## One access -/

/-- A packet ends with WAIT only where the target answers WAIT (R199). -/
theorem ackOf_of_packetResult_wait {r : Nibble} {bs : List Bool} (h : (packetResult r bs).ack = ackWait) :
    ackOf (bs.take 3) = ackWait := by
  by_cases hread : ackOf (bs.take 3) = ackOk ∧ r.getLsbD 1 = true
  · rw [packetResult_read hread.1 hread.2] at h
    split at h
    · exact absurd h (show ackOk ≠ ackWait by decide)
    · exact absurd h (show ackParity ≠ ackWait by decide)
  · rwa [packetResult_other hread] at h

/-- The loop of R203 ends with its first packet unless that is a WAIT with retries left. -/
theorem swdRetryLoop_once {d : DapCh} {r : Nibble} {w : Word} {n : Nat} {s : State}
    (h : (swdXfer d r w s).1.ack = ackWait → n = 0) : swdRetryLoop d r w n s = swdXfer d r w s := by
  cases n with
  | zero => rfl
  | succ n => exact if_neg fun hwait => Nat.succ_ne_zero n (h hwait)

/-- The batch registers after an access that ends with `res` (R44, R203). -/
def Batch.afterAccess (b : Batch) (retries : Nat) (r : Nibble) (res : SwdResp) : Batch :=
  { b with
    retryLeft := retries
    respValue := res.ack
    lastData := if res.ack = ackOk ∧ r.getLsbD 1 = true then res.rdata else b.lastData }

/-- An access whose first packet is its last: any answer but a WAIT with retries left (R203). -/
theorem access_once {d : DapCh} {r : Nibble} {s : State} {bs rest : List Bool} (w : Word) (hbits : PacketBits r bs)
    (hwait : ackOf (bs.take 3) = ackWait → (s.dap d).retryCount = 0) (hdraws : s.draws.swdio = bs ++ rest) :
    AccessRun d s (access d r w s).2 (packetEvents (s.dap d) r w bs) bs ∧
      ((access d r w s).2.dap d).batch =
        (s.dap d).batch.afterAccess (s.dap d).retryCount.toNat r (packetResult r bs) := by
  let budget := (s.dap d).retryCount.toNat
  let armed := (s.setBatch d { (s.dap d).batch with retryLeft := budget }).setFsm d .awaitingAck
  have harm : AccessRun d s armed [] [] := ((AccessRun.refl d s).setBatch _).setFsm _
  have hleft : armed.draws.swdio = bs ++ rest := harm.left hdraws
  have hresult : (swdXfer d r w armed).1 = packetResult r bs := by rw [swdXfer_eq d w hbits hleft]
  have hloop : swdRetryLoop d r w budget armed = swdXfer d r w armed :=
    swdRetryLoop_once fun h => by
      rw [hresult] at h
      show (s.dap d).retryCount.toNat = 0
      rw [hwait (ackOf_of_packetResult_wait h)]
      rfl
  have hpacket := harm.trans (.packet r w hbits hleft)
  rw [harm.packetEvents] at hpacket
  have hbatch : ((swdXfer d r w armed).2.dap d).batch = { (s.dap d).batch with retryLeft := budget } := by
    rw [(swdXfer_wire d r w armed).dap]
    simp [armed]
  have hretry : swdXferRetry d r w s = ((swdXfer d r w armed).1, (swdXfer d r w armed).2.setFsm d
      (if (swdXfer d r w armed).1.ack = ackOk then .idle else .faulted)) := by
    rw [← hloop]
    rfl
  simp only [access, hretry]
  refine ⟨(hpacket.setFsm _).setBatch _, ?_⟩
  simp only [State.setBatch_dap_self, State.setFsm_dap_self, hbatch, hresult]
  rfl

/-! ## A batch of writes -/

/-- A request that writes a register: neither a read nor a match-mask write (R93, R238). -/
def WritesRegister (q : XferReq) : Prop := reqIsRead q.req = false ∧ reqIsMask q.req = false

theorem reqNibble_rnw (req : Byte) : (reqNibble req).getLsbD 1 = reqIsRead req := by
  simp [reqNibble, reqIsRead]

/-- The bits an OK write samples, and its result (R103). -/
theorem okWrite_bits {r : Nibble} (hwrite : r.getLsbD 1 = false) :
    PacketBits r okWrite ∧ packetResult r okWrite = ⟨ackOk, 0⟩ := by
  have hno : ¬ (ackOf (okWrite.take 3) = ackOk ∧ r.getLsbD 1 = true) :=
    fun h => Bool.false_ne_true (hwrite.symm.trans h.2)
  exact ⟨(if_neg hno).symm, packetResult_other hno⟩

/-- The batch registers after `n` further register writes that ended OK (R231, R238). -/
def Batch.afterWrites (b : Batch) (retries n : Nat) : Batch :=
  { b with retryLeft := retries, respValue := ackOk, checkWrite := true, respCount := b.respCount + n }

/-- A register write that is answered OK, with no posted read to collect (R238). -/
theorem oneRequest_write {d : DapCh} {q : XferReq} {s : State} {rest : List Bool} (hq : WritesRegister q)
    (hpost : (s.dap d).batch.postRead = false) (hdraws : s.draws.swdio = okWrite ++ rest) :
    AccessRun d s (oneRequest d q s) (packetEvents (s.dap d) (reqNibble q.req) (reqWord q) okWrite) okWrite ∧
      ((oneRequest d q s).dap d).batch = (s.dap d).batch.afterWrites (s.dap d).retryCount.toNat 0 := by
  obtain ⟨hread, hmask⟩ := hq
  have hrnw : (reqNibble q.req).getLsbD 1 = false := (reqNibble_rnw q.req).trans hread
  obtain ⟨hbits, hresult⟩ := okWrite_bits hrnw
  obtain ⟨hrun, hbatch⟩ := access_once (d := d) (reqWord q) hbits (fun h => absurd h (by decide)) hdraws
  have hok : (access d (reqNibble q.req) (reqWord q) s).2.respValue d = ackOk := by
    simp only [State.respValue, hbatch, Batch.afterAccess, hresult]
  have heq : oneRequest d q s = (access d (reqNibble q.req) (reqWord q) s).2.setCheckWrite d true := by
    simp [oneRequest, hpost, requestBody, hread, hmask, regWrite, hok]
  rw [heq]
  refine ⟨hrun.setCheckWrite true, ?_⟩
  simp only [State.setCheckWrite, State.setBatch_dap_self, hbatch, Batch.afterAccess, hresult, hrnw, Batch.afterWrites]
  simp

/-- Register writes that are all answered OK are all counted (R231, R238). -/
theorem transferLoop_writes {d : DapCh} {qs : List XferReq} {s : State} {rest : List Bool}
    (hqs : ∀ q ∈ qs, WritesRegister q) (hpost : (s.dap d).batch.postRead = false)
    (hdraws : s.draws.swdio = (List.replicate qs.length okWrite).flatten ++ rest) :
    AccessRun d s (transferLoop d qs s)
        (qs.flatMap fun q => packetEvents (s.dap d) (reqNibble q.req) (reqWord q) okWrite)
        (List.replicate qs.length okWrite).flatten ∧
      ((transferLoop d qs s).dap d).batch = if qs = [] then (s.dap d).batch else
        (s.dap d).batch.afterWrites (s.dap d).retryCount.toNat qs.length := by
  induction qs generalizing s with
  | nil => exact ⟨.refl d s, rfl⟩
  | cons q qs ih =>
    obtain ⟨hq, hqs⟩ := List.forall_mem_cons.mp hqs
    rw [List.length_cons, List.replicate_succ, List.flatten_cons, List.append_assoc] at hdraws
    obtain ⟨hone, honeBatch⟩ := oneRequest_write hq hpost hdraws
    let counted := (oneRequest d q s).countOne d
    have hcounted : AccessRun d s counted _ _ := hone.countOne
    have hbatch : (counted.dap d).batch = (s.dap d).batch.afterWrites (s.dap d).retryCount.toNat 1 := by
      simp only [counted, State.countOne, State.setBatch_dap_self, honeBatch]
      rfl
    obtain ⟨hloop, hloopBatch⟩ := ih (s := counted) hqs (by rw [hbatch]; exact hpost)
      (hcounted.left hdraws)
    have hok : (oneRequest d q s).respValue d = ackOk := by
      simp only [State.respValue, honeBatch]
      rfl
    have heq : transferLoop d (q :: qs) s = transferLoop d qs counted := if_pos hok
    rw [hcounted.packetEvents] at hloop
    rw [hbatch, hcounted.retryCount] at hloopBatch
    rw [heq]
    refine ⟨by simpa [List.replicate_succ] using hcounted.trans hloop, ?_⟩
    rw [hloopBatch, if_neg (List.cons_ne_nil q qs), List.length_cons]
    split
    · rename_i hnil
      rw [hnil]
      rfl
    · simp only [Batch.afterWrites, Nat.add_assoc, Nat.add_comm 1]

/-! ## The batch and its confirmation -/

theorem State.busStart_dap (s : State) (d e : DapCh) : (s.busStart d).dap e = s.dap e := by
  rw [State.busStart_eq]
  cases e <;> rfl

/-- The registers of a channel at the start of its batch (R231, R240). -/
theorem batchStart_dap (d : DapCh) (s : State) :
    (batchStart d s).dap d = { s.dap d with dapState := .transferInProgress, batch := Batch.init } := by
  simp [batchStart, State.busStart_dap]

@[simp] theorem batchStart_log (d : DapCh) (s : State) : (batchStart d s).log = (s.busStart d).log := by
  simp [batchStart]

@[simp] theorem batchStart_owner (d : DapCh) (s : State) : (batchStart d s).owner = s.owner := by
  simp [batchStart, State.busStart_owner]

@[simp] theorem batchStart_draws (d : DapCh) (s : State) : (batchStart d s).draws = s.draws := by
  simp only [batchStart, State.setBatch_draws, State.setDapState_draws]
  rw [State.busStart_eq]

/-- A batch whose last access was a write ends with an RDBUFF read (R235). -/
theorem transferFinish_confirm {d : DapCh} {s : State} (hok : s.respValue d = ackOk)
    (hpost : (s.dap d).batch.postRead = false) (hcheck : (s.dap d).batch.checkWrite = true) :
    transferFinish d s = (access d rdbuff 0 s).2.setCheckWrite d false := by
  simp [transferFinish, hok, hpost, hcheck]

/-- A batch of register writes, all answered OK, and its RDBUFF read, which samples `bs` (R231, R235, R238). -/
theorem transferBatch_writes {d : DapCh} {qs : List XferReq} {s : State} {bs rest : List Bool}
    (hqs : ∀ q ∈ qs, WritesRegister q) (hne : qs ≠ []) (hbits : PacketBits rdbuff bs)
    (hwait : ackOf (bs.take 3) = ackWait → (s.dap d).retryCount = 0)
    (hdraws : s.draws.swdio = (List.replicate qs.length okWrite).flatten ++ bs ++ rest) :
    AccessRun d (batchStart d s) (transferBatch d qs s)
        ((qs.flatMap fun q => packetEvents (s.dap d) (reqNibble q.req) (reqWord q) okWrite) ++
          packetEvents (s.dap d) rdbuff 0 bs)
        ((List.replicate qs.length okWrite).flatten ++ bs) ∧
      transferReply d (transferBatch d qs s) = [0x05, BitVec.ofNat 8 qs.length, (packetResult rdbuff bs).ack] := by
  have hstart := batchStart_dap d s
  have hevents : packetEvents ((batchStart d s).dap d) = packetEvents (s.dap d) :=
    packetEvents_congr (by rw [hstart]) (by rw [hstart]) (by rw [hstart])
  have hdraws : (batchStart d s).draws.swdio = (List.replicate qs.length okWrite).flatten ++ (bs ++ rest) := by
    rw [batchStart_draws, hdraws, List.append_assoc]
  obtain ⟨hloop, hbatch⟩ := transferLoop_writes hqs (by rw [hstart]; rfl) hdraws
  rw [if_neg hne] at hbatch
  obtain ⟨hread, hfinal⟩ := access_once 0 hbits (fun h => by rw [hloop.retryCount, hstart]; exact hwait h)
    (hloop.left hdraws)
  have heq : transferBatch d qs s = (access d rdbuff 0 (transferLoop d qs (batchStart d s))).2.setCheckWrite d false :=
    transferFinish_confirm (by rw [State.respValue, hbatch]; rfl) (by rw [hbatch, hstart]; rfl) (by rw [hbatch]; rfl)
  rw [hloop.packetEvents] at hread
  have hrun := (hloop.trans hread).setCheckWrite false
  rw [heq]
  refine ⟨by simpa [hevents] using hrun, ?_⟩
  simp only [transferReply, State.respValue, State.setCheckWrite, State.setBatch_dap_self, hfinal, hbatch, hstart,
    Batch.afterAccess, Batch.afterWrites, Batch.init, Nat.zero_add]

/-- The lease leaves the draws. -/
@[simp] theorem State.leased_draws (s : State) (c : Chan) : (s.leased c).draws = s.draws := by
  unfold State.leased
  split
  · rfl
  · rw [State.setPhase_draws]

/-- DAP_Transfer on a connected channel that can lease runs its batch and answers what it built (R231). -/
theorem execDapTransfer_connected {s : State} {d : DapCh} (idx : Byte) (reqs : List XferReq) (hcan : s.CanLease d.chan)
    (hconn : (s.dap d).dapState ≠ .disconnected) :
    exec (.dapTransfer d idx reqs) s = .next ((transferBatch d reqs (s.leased d.chan)).respond d.chan
      (some (transferReply d (transferBatch d reqs (s.leased d.chan)))) true) := by
  have hconnected : (s.leased d.chan).connected d = true := by simpa [State.connected] using hconn
  simp only [exec, execDapTransfer, leasedCommand, hcan.underLease, hconnected, if_true]

/-- A register write as a request: the ignored bits 7 and 6, and 4, then APnDP, A[3:2] and the word (R93, R229). -/
def writeRequest (x : (BitVec 2 × BitVec 1) × Bool × BitVec 2 × Word) : XferReq :=
  ⟨x.1.1 ++ 0#1 ++ x.1.2 ++ swdNibble x.2.1 false x.2.2.1, some x.2.2.2⟩

/-- The request byte of a register write, whatever its ignored bits (R93). -/
theorem writeRequest_byte : ∀ (high : BitVec 2) (ignored : BitVec 1) (ap : Bool) (a : BitVec 2),
    let req : Byte := high ++ 0#1 ++ ignored ++ swdNibble ap false a
    reqIsRead req = false ∧ reqIsMask req = false ∧ reqNibble req = swdNibble ap false a := by
  decide

theorem writeRequest_writes (x : (BitVec 2 × BitVec 1) × Bool × BitVec 2 × Word) : WritesRegister (writeRequest x) :=
  have hbyte := writeRequest_byte x.1.1 x.1.2 x.2.1 x.2.2.1
  ⟨hbyte.1, hbyte.2.1⟩

@[simp] theorem writeRequest_nibble (x : (BitVec 2 × BitVec 1) × Bool × BitVec 2 × Word) :
    reqNibble (writeRequest x).req = swdNibble x.2.1 false x.2.2.1 :=
  (writeRequest_byte x.1.1 x.1.2 x.2.1 x.2.2.1).2.2

@[simp] theorem writeRequest_word (x : (BitVec 2 × BitVec 1) × Bool × BitVec 2 × Word) :
    reqWord (writeRequest x) = x.2.2.2 := rfl

/-- Settles O55: the batch is its writes and the RDBUFF read, which leaves its result in RESP_VALUE. -/
theorem writesConfirmed : Obligations.WritesConfirmed := by
  intro s d idx ws bs rest hcan hconn hne _ hbits hwait hdraws
  have hqs : ∀ q ∈ ws.map writeRequest, WritesRegister q :=
    List.forall_mem_map.mpr fun x _ => writeRequest_writes x
  have hdraws : (s.leased d.chan).draws.swdio =
      (List.replicate (ws.map writeRequest).length okWrite).flatten ++ bs ++ rest := by
    rw [State.leased_draws, List.length_map, hdraws]
  obtain ⟨hrun, hreply⟩ := transferBatch_writes (d := d) hqs (by simpa using hne) hbits
    (by rwa [State.leased_dap]) hdraws
  refine ⟨_, execDapTransfer_connected idx (ws.map writeRequest) hcan hconn, ?_, ?_, ?_⟩
  · rw [State.respond_response, hreply, List.length_map]
    rfl
  · rw [State.respond_draws]
    exact hrun.left (by rw [batchStart_draws, hdraws])
  · rw [State.respond_log, hrun.log, batchStart_owner, batchStart_log, hcan.leased_owner, State.leased_dap]
    simp only [List.flatMap_map, writeRequest_nibble, writeRequest_word]
    rfl

end Sys2Proof.Machine
end

section
/-! SUPPORT. The decoder and the encoder against each other: what each reader of a frame gives back on the bytes the
encoder writes, and what a frame that it accepts looks like (R65, R81, R82, R89, R90, R102, R229, R245). -/

namespace Sys2Proof

/-! ## Multi-byte fields -/

/-- The two bytes of a field, low byte first, give the field back (R65). -/
@[simp] theorem le16_u16 (b0 b1 : Byte) : le16 (u16 b0 b1) = [b0, b1] := by
  have hlow : (u16 b0 b1).extractLsb' 0 8 = b0 :=
    (BitVec.extractLsb'_append_eq_of_add_le (by omega)).trans BitVec.extractLsb'_eq_self
  have hhigh : (u16 b0 b1).extractLsb' 8 8 = b1 :=
    (BitVec.extractLsb'_append_eq_of_le (by omega)).trans BitVec.extractLsb'_eq_self
  rw [le16, hlow, hhigh]

/-- The four bytes of a field, low byte first, give the field back (R65). -/
@[simp] theorem le32_u32 (b0 b1 b2 b3 : Byte) : le32 (u32 b0 b1 b2 b3) = [b0, b1, b2, b3] := by
  have hbyte0 : (u32 b0 b1 b2 b3).extractLsb' 0 8 = b0 :=
    (BitVec.extractLsb'_append_eq_of_add_le (by omega)).trans BitVec.extractLsb'_eq_self
  have hbyte1 : (u32 b0 b1 b2 b3).extractLsb' 8 8 = b1 :=
    (BitVec.extractLsb'_append_eq_of_le (by omega)).trans
      ((BitVec.extractLsb'_append_eq_of_add_le (by omega)).trans BitVec.extractLsb'_eq_self)
  have hbyte2 : (u32 b0 b1 b2 b3).extractLsb' 16 8 = b2 :=
    (BitVec.extractLsb'_append_eq_of_le (by omega)).trans ((BitVec.extractLsb'_append_eq_of_le (by omega)).trans
      ((BitVec.extractLsb'_append_eq_of_add_le (by omega)).trans BitVec.extractLsb'_eq_self))
  have hbyte3 : (u32 b0 b1 b2 b3).extractLsb' 24 8 = b3 :=
    (BitVec.extractLsb'_append_eq_of_le (by omega)).trans ((BitVec.extractLsb'_append_eq_of_le (by omega)).trans
      ((BitVec.extractLsb'_append_eq_of_le (by omega)).trans BitVec.extractLsb'_eq_self))
  rw [le32, hbyte0, hbyte1, hbyte2, hbyte3]

/-! ## Transfer requests and data words -/

/-- The scan of R230 on a request: the word is read exactly where R229 says one follows. -/
theorem parseReqs_encodeReq {q : XferReq} (h : q.wellFormed = true) (n : Nat) (rest : List Byte) :
    parseReqs (n + 1) (encodeReq q ++ rest) = (parseReqs n rest).map (q :: ·) := by
  obtain ⟨req, word⟩ := q
  cases word with
  | none =>
    have hneeds : reqNeedsWord req = false := by simpa [XferReq.wellFormed] using h
    simp [encodeReq, parseReqs, hneeds]
  | some w =>
    have hneeds : reqNeedsWord req = true := by simpa [XferReq.wellFormed] using h
    simp [encodeReq, le32, parseReqs, hneeds, u32_le32]

/-- The scan of R230 reads back encoded requests, whatever stands after them. -/
theorem parseReqs_encode {reqs : List XferReq} (h : reqs.all XferReq.wellFormed = true) (tail : List Byte) :
    parseReqs reqs.length (reqs.flatMap encodeReq ++ tail) = some reqs := by
  induction reqs with
  | nil => rfl
  | cons q qs ih =>
    obtain ⟨hq, hqs⟩ : q.wellFormed = true ∧ qs.all XferReq.wellFormed = true := by simpa using h
    rw [List.flatMap_cons, List.append_assoc, List.length_cons, parseReqs_encodeReq hq, ih hqs, Option.map_some]

/-- What the scan of R230 accepts is its requests, encoded, and the bytes after them. -/
theorem parseReqs_eq_some {n : Nat} {f : List Byte} {reqs : List XferReq} (h : parseReqs n f = some reqs) :
    reqs.length = n ∧ reqs.all XferReq.wellFormed = true ∧ ∃ tail, f = reqs.flatMap encodeReq ++ tail := by
  induction n generalizing f reqs with
  | zero =>
    obtain rfl : [] = reqs := by simpa [parseReqs] using h
    exact ⟨rfl, rfl, f, rfl⟩
  | succ n ih =>
    have hcons {q : XferReq} {rest : List Byte} (hq : q.wellFormed = true)
        (h : (parseReqs n rest).map (q :: ·) = some reqs) : reqs.length = n + 1 ∧
          reqs.all XferReq.wellFormed = true ∧ ∃ tail, encodeReq q ++ rest = reqs.flatMap encodeReq ++ tail := by
      obtain ⟨qs, hqs, rfl⟩ := Option.map_eq_some_iff.mp h
      obtain ⟨hlen, hall, tail, rfl⟩ := ih hqs
      exact ⟨by rw [List.length_cons, hlen], by simp [hq, hall], tail, by simp⟩
    match f, h with
    | req :: rest, h =>
      unfold parseReqs at h
      split at h
      · rename_i hneeds
        match rest, h with
        | b0 :: b1 :: b2 :: b3 :: rest, h =>
          simpa [encodeReq] using
            hcons (q := ⟨req, some (u32 b0 b1 b2 b3)⟩) (by simp [XferReq.wellFormed, hneeds]) h
      · rename_i hneeds
        exact hcons (q := ⟨req, none⟩) (by simp [XferReq.wellFormed, hneeds]) h

/-- The data words of a block write are read back, whatever stands after them (R245). -/
theorem parseWords_le32 (ws : List Word) (tail : List Byte) :
    parseWords ws.length (ws.flatMap le32 ++ tail) = some ws := by
  induction ws with
  | nil => rfl
  | cons w ws ih => simp [le32, parseWords, u32_le32, ih]

/-- What the reader of data words accepts is its words, encoded, and the bytes after them (R245). -/
theorem parseWords_eq_some {n : Nat} {f : List Byte} {ws : List Word} (h : parseWords n f = some ws) :
    ws.length = n ∧ ∃ tail, f = ws.flatMap le32 ++ tail := by
  induction n generalizing f ws with
  | zero =>
    obtain rfl : [] = ws := by simpa [parseWords] using h
    exact ⟨rfl, f, rfl⟩
  | succ n ih =>
    match f, h with
    | b0 :: b1 :: b2 :: b3 :: rest, h =>
      obtain ⟨vs, hvs, rfl⟩ := Option.map_eq_some_iff.mp (show (parseWords n rest).map _ = _ from h)
      obtain ⟨hlen, tail, rfl⟩ := ih hvs
      exact ⟨by rw [List.length_cons, hlen], tail, by simp⟩

/-! ## Bridge frames -/

/-- The bridge decoder accepts a frame exactly if it has the length its opcode defines and is within BRIDGE_MAX_FRAME
(R81). -/
theorem decodeBridge_eq_ok {p : Params} {f : Frame} {i : Instr} : decodeBridge p f = .ok i ↔
    requiredLenBridge f = some f.length ∧ f.length ≤ p.bridgeMaxFrame ∧ bridgeFields f = .ok i := by
  unfold decodeBridge
  split
  · rename_i hnone
    rw [hnone]
    split
    · simp
    · split <;> simp
  · rename_i n hn
    rw [hn]
    split
    · rename_i hlen
      simp [Ne.symm hlen]
    · rename_i hlen
      obtain rfl : f.length = n := by simpa using hlen
      split
      · rename_i hlong
        simp [Nat.not_le.mpr hlong]
      · rename_i hlong
        simp [Nat.not_lt.mp hlong]

/-- A bridge frame of its required length is the encoding of one of the seven commands (R82, R107). -/
theorem bridgeFields_of_length {p : Params} {f : Frame} (h : requiredLenBridge f = some f.length)
    (hmax : f.length ≤ p.bridgeMaxFrame) :
    ∃ i, bridgeFields f = .ok i ∧ encode i = bridgeFrame f ∧ wellFormed p i = true := by
  cases f with
  | nil => simp [requiredLenBridge] at h
  | cons op rest =>
    simp only [requiredLenBridge] at h
    split at h
    · rename_i hop
      obtain rfl : rest = [] := by simpa using h
      have hlen : wellFormed p .spiBegin = true := by simpa [wellFormed] using hmax
      obtain rfl | rfl | rfl := hop
      · exact ⟨.spiBegin, rfl, rfl, hlen⟩
      · exact ⟨.spiEnd, rfl, rfl, hlen⟩
      · exact ⟨.bootload, rfl, rfl, hlen⟩
    split at h
    · rename_i hop
      obtain ⟨pin, level, rfl⟩ := List.length_eq_two.mp (by simpa using h.symm : rest.length = 2)
      subst hop
      exact ⟨.setGpio pin level, rfl, rfl, by simpa [wellFormed] using hmax⟩
    split at h
    · rename_i hop
      obtain ⟨pin, rfl⟩ := List.length_eq_one_iff.mp (by simpa using h.symm : rest.length = 1)
      subst hop
      exact ⟨.getGpio pin, rfl, rfl, by simpa [wellFormed] using hmax⟩
    split at h
    · rename_i hop
      subst hop
      match rest, h with
      | [h0, h1, h2, h3], _ =>
        exact ⟨.setClock (u32 h0 h1 h2 h3), rfl, by simp [encode], by simpa [wellFormed] using hmax⟩
    split at h
    · rename_i hop
      subst hop
      match rest, h with
      | nL :: nH :: data, h =>
        have hcount : (u16 nL nH).toNat = data.length := by
          simp only [Option.some_inj, List.length_cons] at h
          omega
        refine ⟨.spiExchange data, rfl, ?_, ?_⟩
        · rw [encode, ← hcount, BitVec.ofNat_toNat, BitVec.setWidth_eq, le16_u16]
          rfl
        · have hsmall := (u16 nL nH).isLt
          simp only [List.length_cons] at hmax
          simp only [wellFormed, Bool.and_eq_true, decide_eq_true_eq]
          omega
    · simp at h

theorem bridgeFrame_inj {f g : Frame} (h : bridgeFrame f = bridgeFrame g) : f = g := (Encoded.frame.inj h).2

/-- A DAP frame stands on no other channel (R23). -/
theorem dapFrame_inj {d e : DapCh} {f g : Frame} (h : dapFrame d f = dapFrame e g) : d = e ∧ f = g := by
  obtain ⟨hchan, hbytes⟩ := Encoded.frame.inj h
  cases d <;> cases e <;> simp_all [DapCh.chan]

theorem dapFrame_ne_bridgeFrame {d : DapCh} {f g : Frame} : dapFrame d f ≠ bridgeFrame g := by
  intro h
  cases d <;> exact absurd (Encoded.frame.inj h).1 (by simp [DapCh.chan])

/-- The encoding of a well-formed bridge command decodes to it (R81, R82, R86). -/
theorem decodeBridge_encode {p : Params} {i : Instr} {g : Frame} (henc : encode i = bridgeFrame g)
    (hwf : wellFormed p i = true) : decodeBridge p g = .ok i := by
  rw [decodeBridge_eq_ok]
  cases i with
  | spiBegin | spiEnd | bootload | setGpio _ _ | getGpio _ =>
    obtain rfl := bridgeFrame_inj henc
    exact ⟨rfl, of_decide_eq_true hwf, rfl⟩
  | setClock hz =>
    obtain rfl := bridgeFrame_inj henc
    exact ⟨rfl, by simpa [wellFormed, le32] using hwf, congrArg (Except.ok ∘ Instr.setClock) (u32_le32 hz)⟩
  | spiExchange data =>
    obtain rfl := bridgeFrame_inj henc
    simp only [wellFormed, Bool.and_eq_true, decide_eq_true_eq] at hwf
    obtain ⟨hcount, hmax⟩ := hwf
    refine ⟨?_, by simp [le16]; omega, rfl⟩
    simp [requiredLenBridge, le16, u16_le16, Nat.mod_eq_of_lt hcount]
    omega
  | swdDpWrite _ _ _ | swdApWrite _ _ _ | swdDpRead _ _ | swdApRead _ _ =>
    exact absurd henc (by simp [encode, bridgeFrame])
  | _ => exact absurd henc dapFrame_ne_bridgeFrame

/-! ## DAP frames -/

/-- The fields of a DAP frame read back the encoding of a well-formed command, whatever stands after it (R89, R90). -/
theorem dapFields_encode {p : Params} {d : DapCh} {i : Instr} {g : Frame} (henc : encode i = dapFrame d g)
    (hwf : wellFormed p i = true) (tail : Frame) : dapFields d (g ++ tail) = .ok i := by
  cases i with
  | dapTransfer e idx reqs =>
    obtain ⟨rfl, rfl⟩ := dapFrame_inj henc
    simp only [wellFormed, Bool.and_eq_true, decide_eq_true_eq] at hwf
    obtain ⟨⟨hcount, hreqs⟩, -⟩ := hwf
    have hparse := parseReqs_encode hreqs tail
    simp [dapFields, Nat.mod_eq_of_lt hcount, hparse]
  | dapTransferBlock e idx count req data =>
    obtain ⟨rfl, rfl⟩ := dapFrame_inj henc
    simp only [wellFormed, Bool.and_eq_true, beq_iff_eq] at hwf
    obtain ⟨hdata, -⟩ := hwf
    by_cases hread : reqIsRead req = true
    · obtain rfl : data = [] := by simpa [hread] using hdata
      simp [dapFields, le16, u16_le16, hread]
    · have hparse := parseWords_le32 data tail
      rw [hdata, if_neg hread] at hparse
      simp [dapFields, le16, u16_le16, hread, hparse]
  | dapSwjSequence e count data =>
    obtain ⟨rfl, rfl⟩ := dapFrame_inj henc
    simp only [wellFormed, Bool.and_eq_true, beq_iff_eq] at hwf
    obtain ⟨hdata, -⟩ := hwf
    simp [dapFields, ← hdata]
  | spiBegin | spiEnd | bootload | setGpio _ _ | getGpio _ | setClock _ | spiExchange _ =>
    exact absurd henc.symm dapFrame_ne_bridgeFrame
  | swdDpWrite _ _ _ | swdApWrite _ _ _ | swdDpRead _ _ | swdApRead _ _ =>
    exact absurd henc (by simp [encode, dapFrame])
  | _ =>
    obtain ⟨rfl, rfl⟩ := dapFrame_inj henc
    simp [dapFields, le16, le32, u16_le16, u32_le32]

/-- The instruction that the fields of a DAP frame give stands at the head of the frame, and is well formed where its
longest response fits (R89, R90). -/
def HeadOf (p : Params) (d : DapCh) (f : Frame) (o : Except DecodeError Instr) : Prop :=
  ∀ i, o = .ok i → (maxResponseLen p i ≤ p.dapPktSize → wellFormed p i = true) ∧
    ∃ g tail, encode i = dapFrame d g ∧ f = g ++ tail

theorem HeadOf.error (p : Params) (d : DapCh) (f : Frame) (e : DecodeError) : HeadOf p d f (.error e) := nofun

theorem HeadOf.ok {p : Params} {d : DapCh} {i : Instr} {f g tail : Frame}
    (hwf : maxResponseLen p i ≤ p.dapPktSize → wellFormed p i = true) (henc : encode i = dapFrame d g)
    (hf : f = g ++ tail) : HeadOf p d f (.ok i) := by
  rintro _ ⟨⟩
  exact ⟨hwf, g, tail, henc, hf⟩

theorem HeadOf.ite {p : Params} {d : DapCh} {f : Frame} {c : Prop} [Decidable c] {o u : Except DecodeError Instr}
    (h : c → HeadOf p d f o) (k : HeadOf p d f u) : HeadOf p d f (if c then o else u) := by
  split
  · rename_i hc
    exact h hc
  · exact k

/-- The requests of a DAP_Transfer (R229, R230). -/
theorem transferFields_head (p : Params) (d : DapCh) (idx count : Byte) (rest : Frame) :
    HeadOf p d (0x05 :: idx :: count :: rest)
      (match parseReqs count.toNat rest with
      | some reqs => .ok (.dapTransfer d idx reqs)
      | none => .error .tooShort) := by
  split
  · rename_i reqs hparse
    obtain ⟨hlen, hall, tail, rfl⟩ := parseReqs_eq_some hparse
    have hcount : BitVec.ofNat 8 reqs.length = count := by rw [hlen, BitVec.ofNat_toNat, BitVec.setWidth_eq]
    have hsmall : reqs.length < 256 := hlen ▸ count.isLt
    exact .ok (fun hmax => by simp [wellFormed, hall, hmax, hsmall]) (by rw [encode, hcount]) rfl
  · exact .error _ _ _ _

/-- The data words of a DAP_TransferBlock that writes (R245). -/
theorem blockFields_head (p : Params) (d : DapCh) (idx c0 c1 req : Byte) (rest : Frame) :
    HeadOf p d (0x06 :: idx :: c0 :: c1 :: req :: rest)
      (if reqIsRead req then .ok (.dapTransferBlock d idx (u16 c0 c1) req [])
      else
        match parseWords (u16 c0 c1).toNat rest with
        | some data => .ok (.dapTransferBlock d idx (u16 c0 c1) req data)
        | none => .error .tooShort) := by
  have henc (data : List Word) : encode (.dapTransferBlock d idx (u16 c0 c1) req data) =
      dapFrame d (0x06 :: idx :: c0 :: c1 :: req :: data.flatMap le32) := by
    simp [encode]
  split
  · rename_i hread
    exact .ok (by simp [wellFormed, hread]) (henc []) rfl
  · rename_i hwrite
    split
    · rename_i data hparse
      obtain ⟨hlen, tail, rfl⟩ := parseWords_eq_some hparse
      exact .ok (by simp [wellFormed, hwrite, hlen]) (henc data) rfl
    · exact .error _ _ _ _

/-- The bits of a DAP_SWJ_Sequence (R101). -/
theorem sequenceFields_head (p : Params) (d : DapCh) (count : Byte) (data : Frame) :
    HeadOf p d (0x12 :: count :: data)
      (if data.length < seqByteCount count then .error .tooShort
      else .ok (.dapSwjSequence d count (data.take (seqByteCount count)))) := by
  split
  · exact .error _ _ _ _
  · rename_i hlong
    refine .ok (g := 0x12 :: count :: data.take (seqByteCount count)) (tail := data.drop (seqByteCount count)) ?_ rfl
      (by simp)
    simp [wellFormed, Nat.min_eq_left (Nat.not_lt.mp hlong)]

/-- What the fields of a DAP frame give stands at its head (R89, R90): each ID reads its fields or is too short. -/
theorem dapFields_head (p : Params) (d : DapCh) (f : Frame) : HeadOf p d f (dapFields d f) := by
  cases f with
  | nil => exact .error _ _ _ _
  | cons id args =>
    unfold dapFields
    dsimp only
    refine .ite ?_ (.ite ?_ (.ite ?_ (.ite ?disconnect (.ite ?_ (.ite ?transfer (.ite ?block (.ite ?abort (.ite ?_
      (.ite ?_ (.ite ?reset (.ite ?_ (.ite ?_ (.ite ?sequence (.ite ?_ (.error _ _ _ _)))))))))))))))
    all_goals rintro rfl
    case disconnect | abort | reset => exact .ok decide_eq_true rfl rfl
    case transfer =>
      split
      · exact transferFields_head p d _ _ _
      · exact .error _ _ _ _
    case block =>
      split
      · exact blockFields_head p d _ _ _ _ _
      · exact .error _ _ _ _
    case sequence =>
      split
      · exact sequenceFields_head p d _ _
      · exact .error _ _ _ _
    all_goals
      split
      · exact .ok decide_eq_true (by simp only [encode, le16_u16, le32_u32]; rfl) rfl
      · exact .error _ _ _ _

/-- The DAP decoder accepts a frame exactly if its fields are there and its longest response fits (R89, R276). -/
theorem decodeDap_eq_ok {p : Params} {d : DapCh} {f : Frame} {i : Instr} :
    decodeDap p d f = .ok i ↔ dapFields d f = .ok i ∧ maxResponseLen p i ≤ p.dapPktSize := by
  unfold decodeDap
  split
  · rename_i e he
    simp [he]
  · rename_i j hj
    rw [hj, Except.ok.injEq]
    split
    · rename_i hlarge
      constructor
      · intro h
        exact nomatch h
      · rintro ⟨rfl, hfits⟩
        exact absurd hfits (Nat.not_le.mpr hlarge)
    · rename_i hfits
      constructor
      · rintro ⟨⟩
        exact ⟨rfl, Nat.not_lt.mp hfits⟩
      · rintro ⟨rfl, -⟩
        rfl

@[simp] theorem decode_dap (p : Params) (d : DapCh) (f : Frame) : decode p (.frame d.chan f) = decodeDap p d f := by
  cases d <;> rfl

/-- A well-formed DAP command answers within DAP_PKT_SIZE (R89, R276). -/
theorem maxResponseLen_le_of_wellFormed {p : Params} {d : DapCh} {i : Instr} {g : Frame}
    (henc : encode i = dapFrame d g) (hwf : wellFormed p i = true) : maxResponseLen p i ≤ p.dapPktSize := by
  cases i with
  | dapTransfer _ _ _ | dapTransferBlock _ _ _ _ _ | dapSwjSequence _ _ _ =>
    rw [wellFormed, Bool.and_eq_true, decide_eq_true_eq] at hwf
    exact hwf.2
  | spiBegin | spiEnd | bootload | setGpio _ _ | getGpio _ | setClock _ | spiExchange _ | swdDpWrite _ _ _
  | swdApWrite _ _ _ | swdDpRead _ _ | swdApRead _ _ => exact Nat.zero_le _
  | _ => exact of_decide_eq_true hwf

/-! ## Packets -/

/-- The packet byte of R102 as bits: start and park, the nibble, and its parity. -/
theorem packetByte_eq : ∀ r : Nibble,
    packetByte r = 0x81 ||| (r.setWidth 8 <<< 1) ||| (if requestParity r then 0x20 else 0) := by
  decide

theorem packetByte_injective : Function.Injective packetByte := fun r r' h => by
  rw [← packetByte_nibble r, h, packetByte_nibble]

/-- The packet decoder accepts exactly the packet bytes, and reads their nibble (R102). -/
theorem decodePacket_eq_ok {d : DapCh} {bits : Byte} {w : Word} {i : Instr} :
    decodePacket d bits w = .ok i ↔ ∃ r, i = packetInstr d r w ∧ bits = packetByte r := by
  constructor
  · intro h
    unfold decodePacket at h
    split at h
    · rename_i hbits
      exact ⟨_, (Except.ok.inj h).symm, hbits⟩
    · exact nomatch h
  · rintro ⟨r, rfl, rfl⟩
    exact decodePacket_packetByte d r w

/-- The encoding of a packet row decodes to it (R102). -/
theorem decode_encode_packet (p : Params) {i : Instr} (h : Laws.tableChan i = none) : decode p (encode i) = .ok i := by
  cases i with
  | swdDpWrite d a w => exact (decodePacket_packetByte d _ w).trans (congrArg _ (packetInstr_dpWrite d w a))
  | swdApWrite d a w => exact (decodePacket_packetByte d _ w).trans (congrArg _ (packetInstr_apWrite d w a))
  | swdDpRead d a => exact (decodePacket_packetByte d _ 0).trans (congrArg _ (packetInstr_dpRead d 0 a))
  | swdApRead d a => exact (decodePacket_packetByte d _ 0).trans (congrArg _ (packetInstr_apRead d 0 a))
  | _ => exact nomatch h

/-! ## The three decoders together -/

/-- Where an encoding stands: on the bridge, on a DAP channel, or at the engine's port (R107). -/
theorem encode_cases (i : Instr) :
    (∃ g, encode i = bridgeFrame g) ∨ (∃ d g, encode i = dapFrame d g) ∨ Laws.tableChan i = none := by
  cases i with
  | spiBegin | spiEnd | bootload | setGpio _ _ | getGpio _ | setClock _ | spiExchange _ => exact .inl ⟨_, rfl⟩
  | swdDpWrite _ _ _ | swdApWrite _ _ _ | swdDpRead _ _ | swdApRead _ _ => exact .inr (.inr rfl)
  | _ => exact .inr (.inl ⟨_, _, rfl⟩)

/-- The encoding of a well-formed DAP command decodes to it, whatever stands after it (R89, R90). -/
theorem decodeDap_encode {p : Params} {d : DapCh} {i : Instr} {g : Frame} (henc : encode i = dapFrame d g)
    (hwf : wellFormed p i = true) (tail : Frame) : decodeDap p d (g ++ tail) = .ok i :=
  decodeDap_eq_ok.mpr ⟨dapFields_encode henc hwf tail, maxResponseLen_le_of_wellFormed henc hwf⟩

end Sys2Proof
end

section
/-! SUPPORT. The statements of 30_encoding.md: encoding and decoding. -/

namespace Sys2Proof

open Machine

/-- Settles O1, by evaluating the decoder. -/
theorem encodedWordsDecode : Obligations.EncodedWordsDecode := by
  unfold Obligations.EncodedWordsDecode
  decide

/-- Settles O2, by the place in which the encoding stands. -/
theorem encodeDecodeRoundTrip : Obligations.EncodeDecodeRoundTrip := by
  intro p i hwf
  obtain ⟨g, henc⟩ | ⟨d, g, henc⟩ | hpacket := encode_cases i
  · rw [henc]
    exact decodeBridge_encode henc hwf
  · rw [henc, dapFrame, decode_dap]
    simpa using decodeDap_encode henc hwf []
  · exact decode_encode_packet p hpacket

/-- Settles O3: a frame of its required length is the encoding of what its fields give. -/
theorem bridgeDecodeExact : Obligations.BridgeDecodeExact := by
  intro p f i hdecode
  obtain ⟨hlen, hmax, hfields⟩ := decodeBridge_eq_ok.mp hdecode
  obtain ⟨j, hj, henc, hwf⟩ := bridgeFields_of_length hlen hmax
  obtain rfl := Except.ok.inj (hfields.symm.trans hj)
  exact ⟨hwf, henc⟩

/-- Settles O4: the fields stand at the head of the frame, and are read alike with more bytes after them. -/
theorem dapDecodePrefix : Obligations.DapDecodePrefix := by
  intro p d f i hdecode
  rw [decode_dap, decodeDap_eq_ok] at hdecode
  obtain ⟨hfields, hfits⟩ := hdecode
  obtain ⟨hwf, g, tail, henc, rfl⟩ := dapFields_head p d f i hfields
  refine ⟨hwf hfits, ⟨g, tail, henc, rfl⟩, fun more => ?_⟩
  rw [decode_dap, List.append_assoc]
  exact decodeDap_encode henc (hwf hfits) (tail ++ more)

/-- Settles O5, by the packet byte of each nibble. -/
theorem packetDecodeExact : Obligations.PacketDecodeExact := by
  refine fun p d bits w => ⟨fun i => ?_, packetByte_injective⟩
  simp only [← packetByte_eq]
  exact decodePacket_eq_ok

/-- Settles O6: the rows one by one, the strings by whether they are empty. -/
theorem infoTable : Obligations.InfoTable := by
  intro p
  have hstring (f : Frame) :
      infoString f = if f = [] then [0x00] else BitVec.ofNat 8 (f.length + 1) :: (f ++ [0x00]) := by
    cases f <;> rfl
  refine ⟨rfl, rfl, rfl, fun id hid => ?_, fun x hx => ?_⟩
  · simp only [List.mem_cons, List.not_mem_nil, or_false, not_or] at hid
    simp only [infoPayload, hid, if_false]
  · rw [← hstring]
    simp only [List.mem_cons, List.not_mem_nil, or_false] at hx
    obtain rfl | rfl | rfl | rfl | rfl := hx <;> rfl

/-! ## Frames that are rejected -/

/-- A decoder that accepts nothing rejects by name. -/
theorem exists_error {o : Except DecodeError Instr} (h : ∀ i, o ≠ .ok i) : ∃ e, o = .error e := by
  cases o with
  | ok i => exact absurd rfl (h i)
  | error e => exact ⟨e, rfl⟩

theorem requiredLenBridge_undefined {op : Byte} (rest : Frame) (h : op.toNat = 0 ∨ 8 ≤ op.toNat) :
    requiredLenBridge (op :: rest) = none := by
  have hne (k : Byte) (hk : 1 ≤ k.toNat ∧ k.toNat ≤ 7) : op ≠ k := by
    rintro rfl
    omega
  simp [requiredLenBridge, hne]

/-- An ID outside the subset of R90 is rejected (R92). -/
theorem dapFields_invalidId (d : DapCh) {id : Byte} (rest : Frame)
    (h : 10 < id.toNat ∧ id.toNat < 16 ∨ 19 < id.toNat) : dapFields d (id :: rest) = .error .invalidId := by
  have hne (k : Byte) (hk : k.toNat ≤ 10 ∨ 16 ≤ k.toNat ∧ k.toNat ≤ 19) : id ≠ k := by
    rintro rfl
    omega
  simp [dapFields, hne]

/-- Settles O14: what each decoder asks of a frame, and the step of a channel whose frame is rejected. -/
theorem malformedFrames : Obligations.MalformedFrames := by
  refine ⟨fun p c => ?empty, fun p op rest hop => ?opcode, fun p f n hn hlen => ?length, fun p d id rest hid => ?id,
    fun p d f i hfields hlarge => ?large, fun s c f e hphase hrx hbusy herror => ?step⟩
  case empty => cases c <;> exact ⟨.emptyFrame, rfl⟩
  case opcode =>
    refine exists_error fun i hok => ?_
    obtain ⟨hlen, -⟩ := decodeBridge_eq_ok.mp hok
    exact nomatch (requiredLenBridge_undefined rest hop).symm.trans hlen
  case length =>
    refine exists_error fun i hok => ?_
    obtain ⟨hlenOk, hmax, -⟩ := decodeBridge_eq_ok.mp hok
    have heq := Option.some.inj (hn.symm.trans hlenOk)
    omega
  case id =>
    refine exists_error fun i hok => ?_
    rw [decode_dap, decodeDap_eq_ok, dapFields_invalidId d rest hid] at hok
    exact nomatch hok.1
  case large =>
    refine exists_error fun j hok => ?_
    rw [decode_dap, decodeDap_eq_ok, hfields] at hok
    obtain ⟨hj, hfits⟩ := hok
    obtain rfl := Except.ok.inj hj
    omega
  case step =>
    have hrejected : decode (s.takeFrame c).cfg (.frame c f) = .error e := by
      rw [State.takeFrame, State.setFront_cfg, herror]
    have hanswer : malformedResponse c = if c = .ch0 then [0x01] else [0xFF] := by cases c <;> rfl
    rw [channelStep_idle hphase hbusy hrx, runFrame, hrejected, hanswer]
    rfl

end Sys2Proof
end

section
/-! SUPPORT. One SWD packet: the statements about its wire, and the line at rest after it on every path (R197, R210). -/

namespace Sys2Proof.Machine

/-- Settles O36: the packet is one update of the wire. -/
theorem swdPacketOnTheWire : Obligations.SwdPacketOnTheWire :=
  fun _ d _ w _ _ hbits hdraws => swdXfer_eq d w hbits hdraws

/-! ## The line at rest, whatever is drawn -/

theorem driveBits_sck {s : State} (h : s.sck = true) (bs : List Bool) : (driveBits bs s).sck = true := by
  induction bs generalizing s with
  | nil => exact h
  | cons b bs ih => exact ih rfl

theorem clockCycles_sck {s : State} (h : s.sck = true) (n : Nat) : (clockCycles n s).sck = true := by
  induction n generalizing s with
  | zero => exact h
  | succ n ih => exact ih rfl

/-- A sampled cycle ends with SWCLK high (R192). -/
theorem sampleBit_sck (s : State) : s.sampleBit.2.sck = true := rfl

/-- The turnaround, and SWDIO driven high again (R196, R197). -/
theorem turnHost_sck {s : State} (h : s.sck = true) (n : Nat) : ((clockCycles n s).setSwdio true true).sck = true :=
  clockCycles_sck h n

theorem swdRequest_sck (d : DapCh) (r : Nibble) (s : State) : (swdRequest d r s).2.sck = true := by
  simp only [swdRequest, sampleBits]
  exact sampleBit_sck _

theorem swdIdle_sck {s : State} (h : s.sck = true) (d : DapCh) : (swdIdle d s).sck = true := driveBits_sck h _

theorem swdReadPhase_sck (d : DapCh) (s : State) : (swdReadPhase d s).2.sck = true :=
  swdIdle_sck (turnHost_sck (sampleBit_sck _) _) d

theorem swdWritePhase_sck (d : DapCh) (w : Word) (s : State) : (swdWritePhase d w s).2.sck = true :=
  swdIdle_sck rfl d

theorem swdNackPhase_sck {s : State} (h : s.sck = true) (d : DapCh) (r : Nibble) : (swdNackPhase d r s).sck = true := by
  have hread : ((clockCycles (s.dap d).turnaround (if ((s.dap d).dataPhase && r.getLsbD 1) = true then
      clockCycles 33 s else s)).setSwdio true true).sck = true := by
    split
    · exact turnHost_sck (clockCycles_sck h 33) _
    · exact turnHost_sck h _
  simp only [swdNackPhase, State.setSwdio, State.logEv_sck]
  split
  · exact driveBits_sck hread _
  · exact hread

/-- After a packet the line is at rest (R210). -/
theorem swdXfer_rest (d : DapCh) (r : Nibble) (w : Word) (s : State) :
    (swdXfer d r w s).2.sck = true ∧ (swdXfer d r w s).2.sdo = true ∧ (swdXfer d r w s).2.swdioOe = true := by
  have hreq := swdRequest_sck d r s
  simp only [swdXfer]
  split
  · split
    · exact ⟨swdReadPhase_sck d _, rfl, rfl⟩
    · exact ⟨swdWritePhase_sck d w _, rfl, rfl⟩
  · split
    · exact ⟨swdNackPhase_sck hreq d r, rfl, rfl⟩
    · exact ⟨clockCycles_sck hreq _, rfl, rfl⟩

/-! ## The packet rows -/

section

variable {s : State} {d : DapCh} (r : Nibble) (w : Word)

theorem runPacket_otherOwner (howner : s.owner ≠ some d.chan) :
    runPacket d r w s = .fault (.primitiveWithoutLease d.chan) := if_pos howner

theorem runPacket_otherMode (howner : s.owner = some d.chan) (hmode : s.pinMode ≠ .swd) :
    runPacket d r w s = .fault (.wrongPinMode d.chan) := by
  rw [runPacket, if_neg (not_not.mpr howner), if_pos hmode]

theorem runPacket_owner (howner : s.owner = some d.chan) (hmode : s.pinMode = .swd) :
    runPacket d r w s = .next { (swdXfer d r w s).2 with swdPort := none, swdResult := some (swdXfer d r w s).1 } := by
  rw [runPacket, if_neg (not_not.mpr howner), if_neg (not_not.mpr hmode)]

end

/-- A packet, whatever it samples, writes the wire alone, and LOG only grows (R45, R197, R210). -/
theorem swdXfer_frame (d : DapCh) (r : Nibble) (w : Word) (s : State) : ∃ (newer : List Event) (dr : Draws),
    (swdXfer d r w s).2 = { s with sck := true, sdo := true, swdioOe := true, log := newer ++ s.log, draws := dr } := by
  obtain ⟨⟨newer, hlog⟩, -⟩ := swdXfer_grows d r w s
  obtain ⟨hsck, hsdo, hoe⟩ := swdXfer_rest d r w s
  have hframe := swdXfer_wire d r w s
  rw [SameButWire, hsck, hsdo, hoe, ← hlog] at hframe
  exact ⟨newer, _, hframe⟩

/-- Settles O37: each row is the packet of its nibble at the engine's port. -/
theorem packetRowsRun : Obligations.PacketRowsRun := by
  intro s d a w x hx
  have hexec : exec x.1 s = runPacket d x.2.1 x.2.2 s := by
    simp only [List.mem_cons, List.not_mem_nil, or_false] at hx
    obtain rfl | rfl | rfl | rfl := hx <;> rfl
  rw [hexec]
  refine ⟨runPacket_otherOwner _ _, runPacket_otherMode _ _, fun howner hmode => ⟨?_, fun bs rest hbits hdraws => ?_⟩⟩
  · obtain ⟨newer, dr, hframe⟩ := swdXfer_frame d x.2.1 x.2.2 s
    exact ⟨(swdXfer d x.2.1 x.2.2 s).1, newer, dr, by rw [runPacket_owner _ _ howner hmode, hframe]⟩
  · rw [runPacket_owner _ _ howner hmode, swdXfer_eq d x.2.2 hbits hdraws]

end Sys2Proof.Machine
end

section
/-! SUPPORT. The length of a response: the bytes a batch builds for its requests, and the response of every DAP command
against the size check (R89, R222, R231, R245, R276). -/

namespace Sys2Proof.Machine

/-! ## What an access leaves of the batch registers -/

/-- The packets of an access leave the response data and POST_READ (R203). -/
theorem swdRetryLoop_reply (d : DapCh) (r : Nibble) (w : Word) (n : Nat) (s : State) :
    ((swdRetryLoop d r w n s).2.dap d).batch.out = (s.dap d).batch.out ∧
      ((swdRetryLoop d r w n s).2.dap d).batch.postRead = (s.dap d).batch.postRead := by
  have hpacket (t : State) : (swdXfer d r w t).2.dap d = t.dap d := (swdXfer_wire d r w t).dap d
  induction n generalizing s with
  | zero => simp [swdRetryLoop, hpacket]
  | succ n ih =>
    simp only [swdRetryLoop]
    split
    · simp [ih, hpacket]
    · simp [hpacket]

@[simp] theorem access_out (d : DapCh) (r : Nibble) (w : Word) (s : State) :
    ((access d r w s).2.dap d).batch.out = (s.dap d).batch.out := by
  simp [access, swdXferRetry, swdRetryLoop_reply]

@[simp] theorem access_postRead (d : DapCh) (r : Nibble) (w : Word) (s : State) :
    ((access d r w s).2.dap d).batch.postRead = (s.dap d).batch.postRead := by
  simp [access, swdXferRetry, swdRetryLoop_reply]

theorem accessEmit_out_le (d : DapCh) (r : Nibble) (s : State) :
    ((accessEmit d r s).dap d).batch.out.length ≤ (s.dap d).batch.out.length + 4 := by
  simp only [accessEmit]
  split
  · simp [State.emitWord, le32]
  · simp

@[simp] theorem accessEmit_postRead (d : DapCh) (r : Nibble) (s : State) :
    ((accessEmit d r s).dap d).batch.postRead = (s.dap d).batch.postRead := by
  simp only [accessEmit]
  split
  · simp [State.emitWord]
  · simp

/-! ## The bytes of a DAP_Transfer -/

/-- The response bytes a batch has built, with those of the posted read that is still to be collected (R232). -/
def State.pledged (s : State) (d : DapCh) : Nat :=
  (s.dap d).batch.out.length + if (s.dap d).batch.postRead then 4 else 0

theorem State.pledged_eq {s t : State} {d : DapCh} (hout : (t.dap d).batch.out = (s.dap d).batch.out)
    (hpost : (t.dap d).batch.postRead = (s.dap d).batch.postRead) : t.pledged d = s.pledged d := by
  rw [State.pledged, hout, hpost, State.pledged]

theorem State.out_le_pledged (s : State) (d : DapCh) : (s.dap d).batch.out.length ≤ s.pledged d := Nat.le_add_right ..

theorem access_pledged (d : DapCh) (r : Nibble) (w : Word) (s : State) : (access d r w s).2.pledged d = s.pledged d :=
  State.pledged_eq (access_out ..) (access_postRead ..)

theorem accessEmit_pledged (d : DapCh) (r : Nibble) (s : State) : (accessEmit d r s).pledged d ≤ s.pledged d + 4 := by
  have hout := accessEmit_out_le d r s
  rw [State.pledged, State.pledged, accessEmit_postRead]
  omega

theorem setCheckWrite_pledged (s : State) (d : DapCh) (b : Bool) : (s.setCheckWrite d b).pledged d = s.pledged d :=
  State.pledged_eq (by simp [State.setCheckWrite]) (by simp [State.setCheckWrite])

theorem setRespValue_pledged (s : State) (d : DapCh) (v : Byte) : (s.setRespValue d v).pledged d = s.pledged d :=
  State.pledged_eq (by simp [State.setRespValue]) (by simp [State.setRespValue])

theorem countOne_pledged (s : State) (d : DapCh) : (s.countOne d).pledged d = s.pledged d :=
  State.pledged_eq (by simp [State.countOne]) (by simp [State.countOne])

theorem setPostRead_pledged (s : State) (d : DapCh) (b : Bool) :
    (s.setPostRead d b).pledged d = (s.dap d).batch.out.length + if b then 4 else 0 := by
  simp [State.pledged, State.setPostRead]

/-- Collecting a posted read answers its word; only a plain AP read posts the next one (R232). -/
theorem collect_pledged {d : DapCh} {req : Byte} {s : State} (hpost : (s.dap d).batch.postRead = true) :
    if reqIsRead req ∧ reqIsAp req ∧ ¬ reqIsMatch req then
      (collect d req s).pledged d ≤ s.pledged d + 4 ∧ ((collect d req s).dap d).batch.postRead = true
    else (collect d req s).pledged d ≤ s.pledged d := by
  unfold collect
  split
  · exact ⟨accessEmit_pledged .., by rw [accessEmit_postRead, hpost]⟩
  · have hout := accessEmit_out_le d rdbuff s
    rw [setPostRead_pledged, State.pledged, hpost]
    simpa using hout

/-- A plain read answers its word, now or when it is collected (R233). -/
theorem plainRead_pledged (d : DapCh) (req : Byte) (s : State) : (plainRead d req s).pledged d ≤ s.pledged d + 4 := by
  unfold plainRead
  split
  · split
    · exact Nat.le_add_right ..
    · dsimp only
      split
      · rw [setPostRead_pledged, access_out]
        exact Nat.add_le_add_right (s.out_le_pledged d) 4
      · rw [access_pledged]
        exact Nat.le_add_right ..
  · exact accessEmit_pledged ..

/-- The match loop answers no word (R237). -/
theorem matchLoop_pledged (d : DapCh) (r : Nibble) (m : Word) (n : Nat) (s : State) :
    (matchLoop d r m n s).pledged d = s.pledged d := by
  induction n generalizing s with
  | zero =>
    simp only [matchLoop]
    split
    · exact access_pledged ..
    · split
      · exact access_pledged ..
      · rw [setRespValue_pledged, access_pledged]
  | succ n ih =>
    rw [matchLoop]
    dsimp only
    split
    · exact access_pledged ..
    · split
      · exact access_pledged ..
      · rw [ih]
        exact State.pledged_eq (by simp) (by simp)

theorem matchStart_pledged (d : DapCh) (r : Nibble) (m : Word) (s : State) :
    (matchStart d r m s).pledged d = s.pledged d :=
  (matchLoop_pledged ..).trans (State.pledged_eq (by simp) (by simp))

theorem matchRead_pledged (d : DapCh) (req : Byte) (m : Word) (s : State) :
    (matchRead d req m s).pledged d = s.pledged d := by
  unfold matchRead
  split
  · dsimp only
    split
    · rw [matchStart_pledged, access_pledged]
    · exact access_pledged ..
  · exact matchStart_pledged ..

/-- The bytes a request may answer: a word for a plain read and nothing for any other (R230). -/
def replyBytes (q : XferReq) : Nat := if reqIsPlainRead q.req then 4 else 0

/-- A request after its collect pledges the word of a plain read at most (R231). -/
theorem requestBody_pledged (d : DapCh) (q : XferReq) (s : State) :
    (requestBody d q s).pledged d ≤ s.pledged d + replyBytes q := by
  unfold requestBody
  split
  · rename_i hread
    have hbody : (if reqIsMatch q.req then matchRead d q.req (reqWord q) s else plainRead d q.req s).pledged d ≤
        s.pledged d + replyBytes q := by
      split
      · rw [matchRead_pledged]
        exact Nat.le_add_right ..
      · rename_i hplain
        have hbytes : replyBytes q = 4 := if_pos (by simp_all [reqIsPlainRead, reqIsRead, reqIsMatch])
        rw [hbytes]
        exact plainRead_pledged ..
    dsimp only
    generalize (if reqIsMatch q.req = true then matchRead d q.req (reqWord q) s else plainRead d q.req s) = s1
      at hbody ⊢
    split
    · rw [setCheckWrite_pledged]
      exact hbody
    · exact hbody
  · split
    · rw [maskWrite, setRespValue_pledged]
      exact Nat.le_add_right_of_le (State.pledged_eq (by simp) (by simp)).le
    · simp only [regWrite]
      split
      · rw [setCheckWrite_pledged, access_pledged]
        exact Nat.le_add_right ..
      · rw [access_pledged]
        exact Nat.le_add_right ..

/-- A plain AP read that follows a posted one was issued by the collect (R233). -/
theorem requestBody_posted {d : DapCh} {q : XferReq} {s : State} (hpost : (s.dap d).batch.postRead = true)
    (hq : reqIsRead q.req ∧ reqIsAp q.req ∧ ¬ reqIsMatch q.req) : (requestBody d q s).pledged d = s.pledged d := by
  obtain ⟨hread, hap, hmatch⟩ := hq
  have hplain : plainRead d q.req s = s := by rw [plainRead, if_pos hap, if_pos hpost]
  simp only [requestBody, if_pos hread, if_neg hmatch, hplain]
  split
  · exact setCheckWrite_pledged ..
  · rfl

theorem oneRequest_pledged (d : DapCh) (q : XferReq) (s : State) :
    (oneRequest d q s).pledged d ≤ s.pledged d + replyBytes q := by
  unfold oneRequest
  split
  · rename_i hpost
    have hcollect := collect_pledged (req := q.req) hpost
    dsimp only
    split at hcollect
    · rename_i hq
      obtain ⟨hle, hposted⟩ := hcollect
      have hbytes : replyBytes q = 4 := if_pos (by simp_all [reqIsPlainRead, reqIsRead, reqIsMatch])
      rw [hbytes]
      split
      · rw [requestBody_posted hposted hq]
        exact hle
      · exact hle
    · split
      · exact (requestBody_pledged ..).trans (Nat.add_le_add_right hcollect _)
      · exact Nat.le_add_right_of_le hcollect
  · exact requestBody_pledged ..

theorem transferLoop_pledged (d : DapCh) (reqs : List XferReq) (s : State) :
    (transferLoop d reqs s).pledged d ≤ s.pledged d + 4 * reqs.countP fun q => reqIsPlainRead q.req := by
  induction reqs generalizing s with
  | nil => exact Nat.le_add_right ..
  | cons q qs ih =>
    have hone := oneRequest_pledged d q s
    have hcount : 4 * (q :: qs).countP (fun q => reqIsPlainRead q.req) =
        replyBytes q + 4 * qs.countP (fun q => reqIsPlainRead q.req) := by
      rw [List.countP_cons, replyBytes]
      split <;> omega
    rw [hcount]
    simp only [transferLoop]
    split
    · have hrest := ih ((oneRequest d q s).countOne d)
      rw [countOne_pledged] at hrest
      omega
    · omega

/-- The finish of a batch collects what is pledged (R235). -/
theorem transferFinish_out (d : DapCh) (s : State) :
    ((transferFinish d s).dap d).batch.out.length ≤ s.pledged d := by
  have hout := s.out_le_pledged d
  unfold transferFinish
  split
  · exact hout
  · split
    · rename_i hpost
      have hemit := accessEmit_out_le d rdbuff s
      simpa [State.setPostRead, State.pledged, hpost] using hemit
    · split
      · simpa [State.setCheckWrite] using hout
      · exact hout

/-- A DAP_Transfer answers at most one word for each of its plain reads (R230, R276). -/
theorem transferReply_length (d : DapCh) (reqs : List XferReq) (s : State) :
    (transferReply d (transferBatch d reqs s)).length ≤ 3 + 4 * reqs.countP fun q => reqIsPlainRead q.req := by
  have hstart : (batchStart d s).pledged d = 0 := by simp [batchStart, State.pledged, Batch.init]
  have hloop := transferLoop_pledged d reqs (batchStart d s)
  have hfinish := transferFinish_out d (transferLoop d reqs (batchStart d s))
  rw [hstart] at hloop
  simp only [transferReply, transferBatch, List.length_cons]
  omega

/-! ## The bytes of a DAP_TransferBlock -/

theorem blockRead_out (d : DapCh) (r : Nibble) (n : Nat) (s : State) :
    ((blockRead d r n s).dap d).batch.out.length ≤ (s.dap d).batch.out.length + 4 * n := by
  induction n generalizing s with
  | zero => exact Nat.le_add_right ..
  | succ n ih =>
    have hemit := accessEmit_out_le d (if n = 0 ∧ r.getLsbD 0 = true then rdbuff else r) s
    simp only [blockRead]
    generalize (if n = 0 ∧ r.getLsbD 0 = true then rdbuff else r) = nibble at hemit ⊢
    split
    · refine (ih _).trans ?_
      simp only [State.countOne, State.setBatch_dap_self]
      omega
    · omega

theorem blockWrite_out (d : DapCh) (r : Nibble) (ws : List Word) (s : State) :
    ((blockWrite d r ws s).dap d).batch.out = (s.dap d).batch.out := by
  induction ws generalizing s with
  | nil => rfl
  | cons w ws ih =>
    simp only [blockWrite]
    split
    · rw [ih]
      simp [State.countOne]
    · exact access_out ..

/-- A block answers at most the words of its reads (R276). -/
theorem blockBatch_out (d : DapCh) (m : Nat) (req : Byte) (data : List Word) (s : State) :
    ((blockBatch d m req data s).dap d).batch.out.length ≤ if reqIsRead req then 4 * m else 0 := by
  have hstart : ((batchStart d s).dap d).batch.out = [] := by simp [batchStart, Batch.init]
  have hread (t : State) (ht : (t.dap d).batch.out = []) :
      ((blockRead d (reqNibble req) m t).dap d).batch.out.length ≤ 4 * m := by
    simpa [ht] using blockRead_out d (reqNibble req) m t
  simp only [blockBatch]
  split
  · split
    · split
      · exact hread _ (by rw [access_out, hstart])
      · simp [hstart]
    · exact hread _ hstart
  · split
    · simp [blockWrite_out, hstart]
    · simp [blockWrite_out, hstart]

theorem blockReply_length (d : DapCh) (m : Nat) (req : Byte) (data : List Word) (s : State) :
    (blockReply d (blockBatch d m req data s)).length ≤ if reqIsRead req then 4 + 4 * m else 4 := by
  have hout := blockBatch_out d m req data s
  simp only [blockReply, le16, List.length_append, List.length_cons, List.length_nil]
  split at hout
  · rename_i hread
    rw [if_pos hread]
    omega
  · rename_i hwrite
    rw [if_neg hwrite]
    omega

/-! ## The response of a command -/

theorem State.acquire_cfg (s : State) (c : Chan) : (s.acquire c).cfg = s.cfg := by
  unfold State.acquire
  obtain ⟨x, _, _, _, harb⟩ | ⟨_, harb⟩ :=
    State.arbitrate_cases (State.setPhase { s with pending := s.pending ++ [c] } c .waiting)
  · rw [harb, State.grant, State.logEv_cfg, State.setPhase_cfg]
    exact State.setPhase_cfg ..
  · rw [harb]
    exact State.setPhase_cfg ..

/-- A channel that waits for the lease has built no response (R125). -/
theorem State.acquire_waits_response {s : State} {c : Chan} (h : (s.acquire c).owner ≠ some c) :
    (s.acquire c).response c = none := by
  have hphase : ((s.acquire c).front c).phase = .waiting := by
    unfold State.acquire at h ⊢
    obtain ⟨x, _, _, _, harb⟩ | ⟨_, harb⟩ :=
      State.arbitrate_cases (State.setPhase { s with pending := s.pending ++ [c] } c .waiting)
    · rw [harb] at h ⊢
      rw [State.grant_owner] at h
      rw [State.grant_front_ne _ (fun hc => h (congrArg some hc.symm)), State.setPhase_front_self]
    · rw [harb, State.setPhase_front_self]
  rw [State.response, hphase]

/-- The response of a command under the lease is the one its action answers (R220). -/
theorem leasedCommand_response {c : Chan} {k : State → Frame × State} {s t : State} {f : Frame}
    (h : leasedCommand c k s = .next t) (hresp : t.response c = some f) : ∃ u : State, u.cfg = s.cfg ∧ f = (k u).1 := by
  obtain ⟨-, -, rfl⟩ | ⟨-, -, -, rfl⟩ := underLease_next.mp h
  · rw [State.respond_response] at hresp
    exact ⟨s, rfl, (Option.some.inj hresp).symm⟩
  · split at hresp
    · rw [State.respond_response] at hresp
      exact ⟨s.acquire c, State.acquire_cfg s c, (Option.some.inj hresp).symm⟩
    · rename_i hwaits
      rw [State.acquire_waits_response hwaits] at hresp
      exact nomatch hresp

/-- Two ways in which a command may answer. -/
theorem length_ite_le {p : Prop} [Decidable p] {x y : Frame × State} {n : Nat} (hx : x.1.length ≤ n)
    (hy : y.1.length ≤ n) : (if p then x else y).1.length ≤ n := by
  split
  · exact hx
  · exact hy

/-- The response of a DAP command is at most the longest of R276. -/
theorem exec_response_le {s t : State} {d : DapCh} {i : Instr} {f g : Frame} (henc : encode i = dapFrame d g)
    (h : exec i s = .next t) (hresp : t.response d.chan = some f) : f.length ≤ maxResponseLen s.cfg i := by
  cases i with
  | spiBegin | spiEnd | bootload | setGpio _ _ | getGpio _ | setClock _ | spiExchange _ =>
    exact absurd henc.symm dapFrame_ne_bridgeFrame
  | swdDpWrite _ _ _ | swdApWrite _ _ _ | swdDpRead _ _ | swdApRead _ _ => exact nomatch henc
  | dapTransferAbort e =>
    obtain ⟨rfl, -⟩ := dapFrame_inj henc
    obtain rfl := Host.Outcome.next.inj h
    rw [State.respond_response] at hresp
    exact nomatch hresp
  | dapInfo e id =>
    simp only [exec, execDapInfo] at h
    obtain ⟨rfl, -⟩ := dapFrame_inj henc
    obtain ⟨u, hcfg, rfl⟩ := leasedCommand_response h hresp
    simp [maxResponseLen, hcfg, Nat.add_comm]
  | dapTransfer e idx reqs =>
    simp only [exec, execDapTransfer] at h
    obtain ⟨rfl, -⟩ := dapFrame_inj henc
    obtain ⟨u, -, rfl⟩ := leasedCommand_response h hresp
    exact length_ite_le (transferReply_length ..) (Nat.le_add_right 3 _)
  | dapTransferBlock e idx count req data =>
    simp only [exec, execDapTransferBlock] at h
    obtain ⟨rfl, -⟩ := dapFrame_inj henc
    obtain ⟨u, -, rfl⟩ := leasedCommand_response h hresp
    refine length_ite_le (blockReply_length ..) ?_
    rw [maxResponseLen]
    split
    · exact Nat.le_add_right 4 _
    · exact Nat.le_refl 4
  | dapConnect _ _ | dapWriteAbort _ _ _ | dapSwjClock _ _ | dapSwjSequence _ _ _ =>
    simp only [exec, execDapConnect, execDapWriteAbort, execDapSwjClock, execDapSwjSequence] at h
    obtain ⟨rfl, -⟩ := dapFrame_inj henc
    obtain ⟨u, -, rfl⟩ := leasedCommand_response h hresp
    exact length_ite_le (Nat.le_refl 2) (Nat.le_refl 2)
  | dapResetTarget _ | dapHostStatus _ _ _ | dapDisconnect _ | dapTransferConfigure _ _ _ _ | dapDelay _ _
  | dapSwjPins _ _ _ _ | dapSwdConfigure _ _ =>
    simp only [exec, execDapResetTarget, execDapHostStatus, execDapDisconnect, execDapTransferConfigure, execDapDelay,
      execDapSwjPins, execDapSwdConfigure] at h
    obtain ⟨rfl, -⟩ := dapFrame_inj henc
    obtain ⟨u, -, rfl⟩ := leasedCommand_response h hresp
    simp [maxResponseLen]

/-- A packet at the engine's port builds no response (log entry 9). -/
theorem exec_packet_response {s t : State} {i : Instr} (hi : Laws.tableChan i = none) (h : exec i s = .next t)
    (c : Chan) : t.response c = s.response c := by
  obtain ⟨u, res, hact, rfl⟩ := exec_packet hi h
  have hfront := hact.front c
  cases c <;> simp only [State.response, State.front] at hfront ⊢ <;> rw [hfront]

/-- An instruction of a DAP channel is a packet or a frame of that channel (R13, R107). -/
theorem encode_of_chan {d : DapCh} {i : Instr} (h : Instr.chan i = d.chan) :
    Laws.tableChan i = none ∨ ∃ g, encode i = dapFrame d g := by
  have hbridge : Chan.ch0 ≠ d.chan := by cases d <;> simp [DapCh.chan]
  cases i with
  | spiBegin | spiEnd | bootload | setGpio _ _ | getGpio _ | setClock _ | spiExchange _ => exact absurd h hbridge
  | swdDpWrite _ _ _ | swdApWrite _ _ _ | swdDpRead _ _ | swdApRead _ _ => exact .inl rfl
  | _ => exact .inr ⟨_, congrArg (Encoded.frame · _) h⟩

/-- Settles O52, by the command's response against the size check; a packet has none. -/
theorem responsesFit : Obligations.ResponsesFit := by
  intro s t d i f hchan hnone hexec hresp hwf
  obtain hpacket | ⟨g, henc⟩ := encode_of_chan hchan
  · rw [exec_packet_response hpacket hexec, hnone] at hresp
    exact nomatch hresp
  · have hlen := exec_response_le henc hexec hresp
    exact ⟨hlen, hlen.trans (maxResponseLen_le_of_wellFormed henc hwf)⟩

end Sys2Proof.Machine
end

section
/-! SUPPORT. A batch whose accesses all end OK makes the accesses of its plan (R231 to R238): each operation of a batch
as a run of planned accesses, and what it leaves of the registers that the plan goes by. -/

namespace Sys2Proof.Machine

/-! ## What planned accesses put on the wire and into the response -/

/-- Accesses that are answered OK, each with the word of its answer. -/
abbrev Answered := List (Access × Word)

/-- The events of answered accesses, in wire order (R197). -/
def Answered.events (runs : Answered) (x : DapRegs) : List EventKind :=
  runs.flatMap fun y => packetEvents x y.1.nibble y.1.wdata (y.1.answerBits y.2)

/-- The bits that answered accesses sample (R103, R104). -/
def Answered.bits (runs : Answered) : List Bool := runs.flatMap fun y => y.1.answerBits y.2

/-- The response data of answered accesses (R231). -/
def Answered.words (runs : Answered) : List Byte := (runs.filter fun y => y.1.emits).flatMap fun y => le32 y.2

theorem Answered.events_append (a b : Answered) (x : DapRegs) :
    Answered.events (a ++ b) x = a.events x ++ b.events x := List.flatMap_append

theorem Answered.bits_append (a b : Answered) : Answered.bits (a ++ b) = a.bits ++ b.bits := List.flatMap_append

theorem Answered.words_append (a b : Answered) : Answered.words (a ++ b) = a.words ++ b.words := by
  rw [Answered.words, List.filter_append, List.flatMap_append]
  rfl

/-- From `s` to `t` the batch of `d` makes the accesses `runs`, and answers their words. -/
structure PlanRun (d : DapCh) (s t : State) (runs : Answered) : Prop where
  owner : t.owner = s.owner
  regs : t.dap d = { s.dap d with
    matchMask := (t.dap d).matchMask, xferFsm := (t.dap d).xferFsm, batch := (t.dap d).batch }
  log : t.log = gains s.owner (runs.events (s.dap d)) s.log
  sampled : s.draws.swdio = runs.bits ++ t.draws.swdio
  out : (t.dap d).batch.out = (s.dap d).batch.out ++ runs.words

namespace PlanRun

variable {d : DapCh} {s t u : State} {runs later : Answered} {rest : List Bool}

theorem refl (d : DapCh) (s : State) : PlanRun d s s [] := ⟨rfl, rfl, rfl, rfl, (List.append_nil _).symm⟩

theorem packetEvents (h : PlanRun d s t runs) : packetEvents (t.dap d) = packetEvents (s.dap d) := by
  rw [h.regs]
  rfl

theorem trans (h : PlanRun d s t runs) (k : PlanRun d t u later) : PlanRun d s u (runs ++ later) where
  owner := k.owner.trans h.owner
  regs := by rw [k.regs, h.regs]
  log := by
    have hevents : later.events (t.dap d) = later.events (s.dap d) := by
      simp only [Answered.events, h.packetEvents]
    rw [k.log, h.log, h.owner, hevents, Answered.events_append, gains_append]
  sampled := by rw [h.sampled, k.sampled, Answered.bits_append, List.append_assoc]
  out := by rw [k.out, h.out, Answered.words_append, List.append_assoc]

/-- What is left of the draws. -/
theorem left (h : PlanRun d s t runs) (hdraws : s.draws.swdio = runs.bits ++ rest) : t.draws.swdio = rest :=
  List.append_cancel_left (h.sampled.symm.trans hdraws)

/-- Batch registers other than the response data. -/
theorem setBatch (h : PlanRun d s t runs) {b : Batch} (hout : b.out = (t.dap d).batch.out) :
    PlanRun d s (t.setBatch d b) runs where
  owner := by rw [State.setBatch_owner, h.owner]
  regs := by
    have hregs := h.regs
    rw [State.setBatch_dap_self]
    rw [hregs]
  log := by rw [State.setBatch_log, h.log]
  sampled := by rw [State.setBatch_draws, h.sampled]
  out := by rw [State.setBatch_dap_self, hout, h.out]

end PlanRun

/-! ## The registers that the plan goes by -/

/-- MATCH_MASK, POST_READ, CHECK_WRITE and RESP_COUNT (R44, R231). -/
structure BatchControl where
  mask : Word
  post : Bool
  check : Bool
  count : Nat

/-- The registers of a channel that the plan of its batch goes by. -/
def State.control (s : State) (d : DapCh) : BatchControl :=
  ⟨(s.dap d).matchMask, (s.dap d).batch.postRead, (s.dap d).batch.checkWrite, (s.dap d).batch.respCount⟩

@[simp] theorem setPostRead_control (s : State) (d : DapCh) (b : Bool) :
    (s.setPostRead d b).control d = { s.control d with post := b } := by
  simp [State.control, State.setPostRead]

@[simp] theorem setCheckWrite_control (s : State) (d : DapCh) (b : Bool) :
    (s.setCheckWrite d b).control d = { s.control d with check := b } := by
  simp [State.control, State.setCheckWrite]

@[simp] theorem countOne_control (s : State) (d : DapCh) :
    (s.countOne d).control d = { s.control d with count := (s.control d).count + 1 } := by
  simp [State.control, State.countOne]

@[simp] theorem emitWord_control (s : State) (d : DapCh) (v : Word) : (s.emitWord d v).control d = s.control d := by
  simp [State.control, State.emitWord]

@[simp] theorem emitWord_respValue (s : State) (d : DapCh) (v : Word) :
    (s.emitWord d v).respValue d = s.respValue d := by
  simp [State.respValue, State.emitWord]

/-! ## One planned access -/

theorem okRead_ack (v : Word) : ackOf ((okRead v).take 3) = ackOk := by
  have htake : (okRead v).take 3 = [true, false, false] := by simp [okRead]
  rw [htake]
  rfl

/-- The answer OK with good parity to a read of `v` (R104, R199). -/
theorem okRead_bits {r : Nibble} (hread : r.getLsbD 1 = true) (v : Word) :
    PacketBits r (okRead v) ∧ packetResult r (okRead v) = ⟨ackOk, v⟩ := by
  have hack := okRead_ack v
  have hdata : ((okRead v).drop 3).take 32 = bitsOf v := by simp [okRead]
  have hparity : (okRead v).getD 35 false = xor32 v := by simp [okRead, List.getD_eq_getElem?_getD]
  refine ⟨?_, ?_⟩
  · rw [PacketBits, if_pos ⟨hack, hread⟩]
    simp [okRead]
  · rw [packetResult_read hack hread, hdata, ofBits_bitsOf, if_pos hparity]

/-- The answer OK to an access: the word of a read (R103, R104). -/
theorem Access.answerBits_ok (a : Access) (v : Word) : PacketBits a.nibble (a.answerBits v) ∧
    packetResult a.nibble (a.answerBits v) = ⟨ackOk, if a.nibble.getLsbD 1 then v else 0⟩ ∧
    ackOf ((a.answerBits v).take 3) = ackOk := by
  unfold Access.answerBits
  split
  · rename_i hread
    obtain ⟨hbits, hresult⟩ := okRead_bits hread v
    exact ⟨hbits, hresult, okRead_ack v⟩
  · rename_i hwrite
    obtain ⟨hbits, hresult⟩ := okWrite_bits (Bool.eq_false_of_not_eq_true hwrite)
    exact ⟨hbits, hresult, rfl⟩

/-- The word of an access that reads and ends OK is the one LAST_DATA keeps (R44). -/
theorem access_word {d : DapCh} {r : Nibble} {w : Word} {s : State} (hread : r.getLsbD 1 = true)
    (hok : (access d r w s).2.respValue d = ackOk) :
    (access d r w s).1 = ((access d r w s).2.dap d).batch.lastData := by
  simp only [access, State.respValue, State.setBatch_dap_self] at hok ⊢
  rw [if_pos ⟨hok, hread⟩]

/-- An access that is answered OK: its packet, no response data, and the word of a read (R231). -/
theorem access_planned {d : DapCh} {s : State} {a : Access} {v : Word} {rest : List Bool}
    (hdraws : s.draws.swdio = a.answerBits v ++ rest) :
    AccessRun d s (access d a.nibble a.wdata s).2 (packetEvents (s.dap d) a.nibble a.wdata (a.answerBits v))
        (a.answerBits v) ∧
      (access d a.nibble a.wdata s).2.respValue d = ackOk ∧
      (access d a.nibble a.wdata s).2.control d = s.control d ∧
      (a.nibble.getLsbD 1 = true → (access d a.nibble a.wdata s).1 = v) := by
  obtain ⟨hbits, hresult, hack⟩ := a.answerBits_ok v
  obtain ⟨hrun, hbatch⟩ := access_once (d := d) a.wdata hbits
    (fun hwait => absurd (hack.symm.trans hwait) (by decide)) hdraws
  have hok : (access d a.nibble a.wdata s).2.respValue d = ackOk := by
    rw [State.respValue, hbatch, hresult]
    rfl
  have hmask := congrArg DapRegs.matchMask hrun.frame.dap
  refine ⟨hrun, hok, ?_, fun hread => ?_⟩
  · rw [State.control, hmask, hbatch]
    rfl
  · rw [access_word hread hok, hbatch, hresult]
    simp [Batch.afterAccess, hread]

/-- A planned access whose word is not answered. -/
theorem access_run {d : DapCh} {s : State} {a : Access} {v : Word} {rest : List Bool} (hemits : a.emits = false)
    (hdraws : s.draws.swdio = a.answerBits v ++ rest) :
    PlanRun d s (access d a.nibble a.wdata s).2 [(a, v)] := by
  obtain ⟨hrun, -⟩ := access_planned (d := d) hdraws
  refine ⟨hrun.frame.owner, ?_, ?_, ?_, ?_⟩
  · rw [hrun.frame.dap]
  · simpa [Answered.events] using hrun.log
  · simpa [Answered.bits] using hrun.sampled
  · simp [Answered.words, hemits]

/-- A planned read whose word is answered (R231). -/
theorem accessEmit_run {d : DapCh} {s : State} {r : Nibble} {v : Word} {wants : Option (Word × Word)}
    {rest : List Bool} (hread : r.getLsbD 1 = true)
    (hdraws : s.draws.swdio = Access.answerBits ⟨r, 0, true, wants⟩ v ++ rest) :
    PlanRun d s (accessEmit d r s) [(⟨r, 0, true, wants⟩, v)] ∧ (accessEmit d r s).respValue d = ackOk ∧
      (accessEmit d r s).control d = s.control d := by
  obtain ⟨hrun, hok, hcontrol, hword⟩ := access_planned (d := d) hdraws
  have heq : accessEmit d r s = (access d r 0 s).2.emitWord d v := by
    simp only [accessEmit]
    rw [if_pos hok, hword hread]
  rw [heq]
  refine ⟨⟨?_, ?_, ?_, ?_, ?_⟩, ?_, ?_⟩
  · exact (State.setBatch_owner ..).trans hrun.frame.owner
  · rw [State.emitWord, State.setBatch_dap_self, hrun.frame.dap]
  · rw [State.emitWord, State.setBatch_log, hrun.log]
    simp [Answered.events]
  · rw [State.emitWord, State.setBatch_draws, hrun.sampled]
    simp [Answered.bits]
  · simp [State.emitWord, Answered.words]
  · rw [emitWord_respValue, hok]
  · rw [emitWord_control, hcontrol]


/-! ## Plans -/

/-- `runs` are answers to the accesses `plan`, with the words that value-match reads wait for, and the SWDIO draws of
`s` are their bits and then `rest` (R237). -/
structure Answers (s : State) (plan : List Access) (runs : Answered) (rest : List Bool) : Prop where
  plan : runs.map Prod.fst = plan
  accepted : ∀ y ∈ runs, y.1.accepts y.2 = true
  draws : s.draws.swdio = Answered.bits runs ++ rest

/-- From `s` to `t` the batch makes the first of the accesses that `runs` answers, and ends OK with the registers `c`;
`plan` is left. -/
def Made (d : DapCh) (s t : State) (c : BatchControl) (plan : List Access) (runs : Answered) (rest : List Bool) :
    Prop :=
  ∃ mine later, runs = mine ++ later ∧ PlanRun d s t mine ∧ t.respValue d = ackOk ∧ t.control d = c ∧
    Answers t plan later rest

section

variable {d : DapCh} {s t u : State} {c e : BatchControl} {plan left : List Access} {runs : Answered}
  {rest : List Bool}

/-- The first access of a plan, once it is made. -/
theorem Answers.made {a : Access} (h : Answers s (a :: plan) runs rest)
    (ha : ∀ v bs, a.accepts v = true → s.draws.swdio = a.answerBits v ++ bs →
      PlanRun d s t [(a, v)] ∧ t.respValue d = ackOk ∧ t.control d = c) : Made d s t c plan runs rest := by
  obtain ⟨⟨b, v⟩, later, rfl, hb, hlater⟩ := List.map_eq_cons_iff.mp h.plan
  obtain rfl : b = a := hb
  have hdraws : s.draws.swdio = Answered.bits [(b, v)] ++ (Answered.bits later ++ rest) := by
    rw [h.draws, ← List.append_assoc, ← Answered.bits_append]
    rfl
  obtain ⟨hrun, hok, hcontrol⟩ := ha v (Answered.bits later ++ rest) (h.accepted _ (List.mem_cons_self ..))
    (by simpa [Answered.bits] using hdraws)
  exact ⟨[(b, v)], later, rfl, hrun, hok, hcontrol, hlater, fun y hy => h.accepted y (List.mem_cons_of_mem _ hy),
    hrun.left hdraws⟩

theorem Made.trans (h : Made d s t c plan runs rest)
    (k : ∀ later, Answers t plan later rest → Made d t u e left later rest) : Made d s u e left runs rest := by
  obtain ⟨mine, later, rfl, hrun, -, -, hlater⟩ := h
  obtain ⟨mine', later, rfl, hrun', hok, hcontrol, hleft⟩ := k later hlater
  exact ⟨mine ++ mine', later, (List.append_assoc ..).symm, hrun.trans hrun', hok, hcontrol, hleft⟩

theorem Made.ok (h : Made d s t c plan runs rest) : t.respValue d = ackOk := by
  obtain ⟨_, _, _, _, hok, _⟩ := h
  exact hok

theorem Made.control (h : Made d s t c plan runs rest) : t.control d = c := by
  obtain ⟨_, _, _, _, _, hcontrol, _⟩ := h
  exact hcontrol

/-- A write of batch registers other than RESP_VALUE and the response data. -/
theorem Made.setBatch (h : Made d s t c plan runs rest) {b : Batch} (hout : b.out = (t.dap d).batch.out)
    (hvalue : b.respValue = (t.dap d).batch.respValue) (hcontrol : (t.setBatch d b).control d = e) :
    Made d s (t.setBatch d b) e plan runs rest := by
  obtain ⟨mine, later, heq, hrun, hok, -, hplan, haccepted, hdraws⟩ := h
  refine ⟨mine, later, heq, hrun.setBatch hout, ?_, hcontrol, hplan, haccepted, by rwa [State.setBatch_draws]⟩
  rw [State.respValue, State.setBatch_dap_self, hvalue]
  exact hok

theorem Made.setPostRead (h : Made d s t c plan runs rest) (b : Bool) :
    Made d s (t.setPostRead d b) { c with post := b } plan runs rest :=
  h.setBatch rfl rfl (h.control ▸ setPostRead_control t d b)

theorem Made.setCheckWrite (h : Made d s t c plan runs rest) (b : Bool) :
    Made d s (t.setCheckWrite d b) { c with check := b } plan runs rest :=
  h.setBatch rfl rfl (h.control ▸ setCheckWrite_control t d b)

theorem Made.countOne (h : Made d s t c plan runs rest) :
    Made d s (t.countOne d) { c with count := c.count + 1 } plan runs rest :=
  h.setBatch rfl rfl (h.control ▸ countOne_control t d)

/-- A plan that is made to its end (R235). -/
theorem Made.all (h : Made d s t c [] runs rest) : PlanRun d s t runs ∧ t.draws.swdio = rest := by
  obtain ⟨mine, later, rfl, hrun, -, -, hplan, -, hdraws⟩ := h
  obtain rfl : later = [] := List.map_eq_nil_iff.mp hplan
  exact ⟨by rwa [List.append_nil], hdraws⟩

/-- No access is made. -/
theorem Answers.none_made (h : Answers s plan runs rest) (hok : s.respValue d = ackOk) :
    Made d s s (s.control d) plan runs rest :=
  ⟨[], runs, rfl, .refl d s, hok, rfl, h⟩

/-! ## The operations of a batch -/

/-- A planned access whose word is not answered. -/
theorem access_made {a : Access} (hemits : a.emits = false) (h : Answers s (a :: plan) runs rest) :
    Made d s (access d a.nibble a.wdata s).2 (s.control d) plan runs rest :=
  h.made fun _ _ _ hdraws =>
    have ⟨_, hok, hcontrol, _⟩ := access_planned hdraws
    ⟨access_run hemits hdraws, hok, hcontrol⟩

/-- A planned read whose word is answered (R231). -/
theorem accessEmit_made {r : Nibble} {wants : Option (Word × Word)} (hread : r.getLsbD 1 = true)
    (h : Answers s (⟨r, 0, true, wants⟩ :: plan) runs rest) :
    Made d s (accessEmit d r s) (s.control d) plan runs rest :=
  h.made fun _ _ _ hdraws => accessEmit_run hread hdraws

/-- The match loop ends with its first word that matches (R237). -/
theorem matchLoop_first {r : Nibble} {m : Word} (n : Nat) (hok : (access d r 0 s).2.respValue d = ackOk)
    (hmatch : (access d r 0 s).1 &&& ((access d r 0 s).2.dap d).matchMask = m) :
    matchLoop d r m n s = (access d r 0 s).2 := by
  cases n <;> simp only [matchLoop, hok, hmatch, ne_eq, not_true_eq_false, if_false, if_true]

/-- A value-match read whose first compared word matches (R237). -/
theorem matchStart_made {r : Nibble} {m : Word} (hread : r.getLsbD 1 = true)
    (h : Answers s (⟨r, 0, false, some ((s.control d).mask, m)⟩ :: plan) runs rest) :
    Made d s (matchStart d r m s) (s.control d) plan runs rest := by
  let armed := s.setBatch d { (s.dap d).batch with matchLeft := (s.dap d).matchRetry.toNat }
  have harmed : PlanRun d s armed [] := (PlanRun.refl d s).setBatch rfl
  have hsame : armed.control d = s.control d := by simp [armed, State.control]
  refine h.made fun v bs haccepts hdraws => ?_
  have hdraws : armed.draws.swdio = _ := (congrArg Draws.swdio (State.setBatch_draws ..)).trans hdraws
  obtain ⟨-, hok, hcontrol, hword⟩ := access_planned (d := d) hdraws
  have hmask : ((access d r 0 armed).2.dap d).matchMask = (s.control d).mask :=
    congrArg BatchControl.mask (hcontrol.trans hsame)
  have heq : matchStart d r m s = (access d r 0 armed).2 :=
    matchLoop_first _ hok (by rw [hword hread, hmask]; simpa [Access.accepts] using haccepts)
  rw [heq]
  exact ⟨harmed.trans (access_run rfl hdraws), hok, hcontrol.trans hsame⟩

end

/-! ## One request -/

/-- A plain AP read, which posts the next word (R233). -/
abbrev PostsRead (q : XferReq) : Prop := reqIsRead q.req = true ∧ reqIsAp q.req = true ∧ ¬ reqIsMatch q.req = true

/-- The accesses of a request after its collect (R231 to R238). -/
def bodyPlan (c : BatchControl) (q : XferReq) : List Access :=
  if reqIsRead q.req then
    if reqIsMatch q.req then
      (if reqIsAp q.req then [⟨reqNibble q.req, 0, false, none⟩] else []) ++
        [⟨reqNibble q.req, 0, false, some (c.mask, reqWord q)⟩]
    else if reqIsAp q.req then [⟨reqNibble q.req, 0, c.post, none⟩]
    else [⟨reqNibble q.req, 0, true, none⟩]
  else if reqIsMask q.req then []
  else [⟨reqNibble q.req, reqWord q, false, none⟩]

/-- The RDBUFF read that collects a posted read, where one is due before the request `q` (R232). -/
def collectPlan (c : BatchControl) (q : XferReq) : List Access :=
  if c.post = true ∧ ¬ PostsRead q then [⟨rdbuff, 0, true, none⟩] else []

/-- The registers after a request that ended OK (R231, R233, R236, R238). -/
def BatchControl.after (c : BatchControl) (q : XferReq) : BatchControl where
  mask := if !reqIsRead q.req && reqIsMask q.req then reqWord q else c.mask
  post := decide (PostsRead q)
  check := if reqIsRead q.req then false else if reqIsMask q.req then c.check else true
  count := c.count

/-- The plan of the requests that are left (R231 to R238). -/
abbrev BatchControl.plan (c : BatchControl) (reqs : List XferReq) : List Access := accessPlan c.mask c.post c.check reqs

/-- The plan of a batch from its first request, in the terms of R231 (R93). -/
theorem accessPlan_cons (mask : Word) (post check : Bool) (q : XferReq) (qs : List XferReq) :
    accessPlan mask post check (q :: qs) =
      let collect : List Access := if post then [⟨rdbuff, 0, true, none⟩] else []
      if reqIsRead q.req then
        if reqIsMatch q.req then
          collect ++ (if reqIsAp q.req then [⟨reqNibble q.req, 0, false, none⟩] else []) ++
            ⟨reqNibble q.req, 0, false, some (mask, reqWord q)⟩ :: accessPlan mask false false qs
        else if reqIsAp q.req then ⟨reqNibble q.req, 0, post, none⟩ :: accessPlan mask true false qs
        else collect ++ ⟨reqNibble q.req, 0, true, none⟩ :: accessPlan mask false false qs
      else if reqIsMask q.req then collect ++ accessPlan (reqWord q) false check qs
      else collect ++ ⟨reqNibble q.req, reqWord q, false, none⟩ :: accessPlan mask false true qs := rfl

/-- The plan request by request. -/
theorem BatchControl.plan_cons (c : BatchControl) (q : XferReq) (qs : List XferReq) :
    c.plan (q :: qs) = collectPlan c q ++ (bodyPlan c q ++ (c.after q).plan qs) := by
  rw [BatchControl.plan, accessPlan_cons]
  by_cases hread : reqIsRead q.req = true
  · by_cases hmatch : reqIsMatch q.req = true
    · simp [BatchControl.plan, collectPlan, bodyPlan, BatchControl.after, hread, hmatch]
    · by_cases hap : reqIsAp q.req = true
      · simp [BatchControl.plan, collectPlan, bodyPlan, BatchControl.after, hread, hmatch, hap]
      · simp [BatchControl.plan, collectPlan, bodyPlan, BatchControl.after, hread, hmatch, hap]
  · by_cases hmask : reqIsMask q.req = true
    · simp [BatchControl.plan, collectPlan, bodyPlan, BatchControl.after, hread, hmask]
    · simp [BatchControl.plan, collectPlan, bodyPlan, BatchControl.after, hread, hmask]

section

variable {d : DapCh} {s : State} {q : XferReq} {left : List Access} {runs : Answered} {rest : List Bool}

/-- A read that ends OK takes back CHECK_WRITE (R231). -/
theorem requestBody_read {t : State} {c : BatchControl} (hread : reqIsRead q.req = true)
    (ht : (if reqIsMatch q.req then matchRead d q.req (reqWord q) s else plainRead d q.req s) = t)
    (h : Made d s t c left runs rest) : Made d s (requestBody d q s) { c with check := false } left runs rest := by
  have heq : requestBody d q s = t.setCheckWrite d false := by
    simp only [requestBody, hread, if_true, ht, h.ok]
  rw [heq]
  exact h.setCheckWrite false

/-- A value-match read, posted first on the AP (R237). -/
theorem matchRead_made (hread : reqIsRead q.req = true)
    (h : Answers s ((if reqIsAp q.req then [⟨reqNibble q.req, 0, false, none⟩] else []) ++
      ⟨reqNibble q.req, 0, false, some ((s.control d).mask, reqWord q)⟩ :: left) runs rest) :
    Made d s (matchRead d q.req (reqWord q) s) (s.control d) left runs rest := by
  have hrnw := (reqNibble_rnw q.req).trans hread
  unfold matchRead
  split
  · rename_i hap
    rw [if_pos hap] at h
    have hpost := access_made (d := d) rfl h
    rw [if_pos hpost.ok]
    refine hpost.trans fun later hlater => ?_
    rw [← hpost.control] at hlater ⊢
    exact matchStart_made hrnw hlater
  · rename_i hdp
    rw [if_neg hdp] at h
    exact matchStart_made hrnw h

/-- A match-mask write makes no access (R236). -/
theorem maskWrite_made (w : Word) (h : Answers s left runs rest) :
    Made d s (maskWrite d w s) { s.control d with mask := w } left runs rest := by
  have hregs : (maskWrite d w s).dap d =
      { s.dap d with matchMask := w, batch := { (s.dap d).batch with respValue := ackOk } } := by
    simp [maskWrite, State.setRespValue]
  have hdraws : (maskWrite d w s).draws = s.draws := by simp [maskWrite, State.setRespValue]
  refine ⟨[], runs, rfl, ⟨?_, ?_, ?_, ?_, ?_⟩, ?_, ?_, h.plan, h.accepted, by rw [hdraws, h.draws]⟩
  · simp [maskWrite, State.setRespValue]
  · rw [hregs]
  · simp [maskWrite, State.setRespValue, Answered.events, gains]
  · rw [hdraws]
    rfl
  · rw [hregs]
    exact (List.append_nil _).symm
  · rw [State.respValue, hregs]
  · rw [State.control, hregs]
    rfl

/-! The five kinds of request (R231), with no posted read to collect. -/

theorem requestBody_match (hpost : (s.control d).post = false) (hread : reqIsRead q.req = true)
    (hmatch : reqIsMatch q.req = true) (h : Answers s (bodyPlan (s.control d) q ++ left) runs rest) :
    Made d s (requestBody d q s) ((s.control d).after q) left runs rest := by
  have hafter : (s.control d).after q = { s.control d with check := false } := by
    simp [BatchControl.after, hread, hmatch, hpost]
  rw [hafter]
  refine requestBody_read hread (if_pos hmatch) (matchRead_made hread ?_)
  simpa [bodyPlan, hread, hmatch] using h

theorem requestBody_apRead (hpost : (s.control d).post = false) (hread : reqIsRead q.req = true)
    (hmatch : ¬ reqIsMatch q.req = true) (hap : reqIsAp q.req = true)
    (h : Answers s (bodyPlan (s.control d) q ++ left) runs rest) :
    Made d s (requestBody d q s) ((s.control d).after q) left runs rest := by
  have hplan : bodyPlan (s.control d) q = [⟨reqNibble q.req, 0, false, none⟩] := by
    simp [bodyPlan, hread, hmatch, hap, hpost]
  have hafter : (s.control d).after q = { s.control d with post := true, check := false } := by
    simp [BatchControl.after, hread, hmatch, hap]
  rw [hplan] at h
  have hmade := access_made (d := d) rfl h
  have hplain : plainRead d q.req s = (access d (reqNibble q.req) 0 s).2.setPostRead d true := by
    have hposted : (s.dap d).batch.postRead = false := hpost
    simp only [plainRead, hap, hposted, if_true, Bool.false_eq_true, if_false]
    exact if_pos hmade.ok
  rw [hafter]
  exact requestBody_read hread ((if_neg hmatch).trans hplain) (hmade.setPostRead true)

theorem requestBody_dpRead (hpost : (s.control d).post = false) (hread : reqIsRead q.req = true)
    (hmatch : ¬ reqIsMatch q.req = true) (hdp : ¬ reqIsAp q.req = true)
    (h : Answers s (bodyPlan (s.control d) q ++ left) runs rest) :
    Made d s (requestBody d q s) ((s.control d).after q) left runs rest := by
  have hplan : bodyPlan (s.control d) q = [⟨reqNibble q.req, 0, true, none⟩] := by
    simp [bodyPlan, hread, hmatch, hdp]
  have hafter : (s.control d).after q = { s.control d with check := false } := by
    simp [BatchControl.after, hread, hmatch, hdp, hpost]
  have hplain : plainRead d q.req s = accessEmit d (reqNibble q.req) s := if_neg hdp
  rw [hplan] at h
  rw [hafter]
  exact requestBody_read hread ((if_neg hmatch).trans hplain)
    (accessEmit_made ((reqNibble_rnw q.req).trans hread) h)

theorem requestBody_maskWrite (hpost : (s.control d).post = false) (hwrite : ¬ reqIsRead q.req = true)
    (hmask : reqIsMask q.req = true) (h : Answers s (bodyPlan (s.control d) q ++ left) runs rest) :
    Made d s (requestBody d q s) ((s.control d).after q) left runs rest := by
  have hafter : (s.control d).after q = { s.control d with mask := reqWord q } := by
    simp [BatchControl.after, hwrite, hmask, hpost]
  have heq : requestBody d q s = maskWrite d (reqWord q) s := by simp [requestBody, hwrite, hmask]
  rw [hafter, heq]
  refine maskWrite_made (reqWord q) ?_
  simpa [bodyPlan, hwrite, hmask] using h

theorem requestBody_regWrite (hpost : (s.control d).post = false) (hwrite : ¬ reqIsRead q.req = true)
    (hmask : ¬ reqIsMask q.req = true) (h : Answers s (bodyPlan (s.control d) q ++ left) runs rest) :
    Made d s (requestBody d q s) ((s.control d).after q) left runs rest := by
  have hplan : bodyPlan (s.control d) q = [⟨reqNibble q.req, reqWord q, false, none⟩] := by
    simp [bodyPlan, hwrite, hmask]
  have hafter : (s.control d).after q = { s.control d with check := true } := by
    simp [BatchControl.after, hwrite, hmask, hpost]
  rw [hplan] at h
  have hmade := access_made (d := d) rfl h
  have heq : requestBody d q s = (access d (reqNibble q.req) (reqWord q) s).2.setCheckWrite d true := by
    simp only [requestBody, hwrite, hmask, Bool.false_eq_true, if_false, regWrite]
    exact if_pos hmade.ok
  rw [hafter, heq]
  exact hmade.setCheckWrite true

/-- A request with no posted read to collect makes its accesses (R231). -/
theorem requestBody_made (hpost : (s.control d).post = false)
    (h : Answers s (bodyPlan (s.control d) q ++ left) runs rest) :
    Made d s (requestBody d q s) ((s.control d).after q) left runs rest := by
  by_cases hread : reqIsRead q.req = true
  · by_cases hmatch : reqIsMatch q.req = true
    · exact requestBody_match hpost hread hmatch h
    · by_cases hap : reqIsAp q.req = true
      · exact requestBody_apRead hpost hread hmatch hap h
      · exact requestBody_dpRead hpost hread hmatch hap h
  · by_cases hmask : reqIsMask q.req = true
    · exact requestBody_maskWrite hpost hread hmask h
    · exact requestBody_regWrite hpost hread hmask h

/-- A plain AP read after a posted one: the collect issues it, and answers the word of the other (R232, R233). -/
theorem oneRequest_posted (hpost : (s.control d).post = true) (hq : PostsRead q)
    (h : Answers s (bodyPlan (s.control d) q ++ left) runs rest) :
    Made d s (oneRequest d q s) ((s.control d).after q) left runs rest := by
  obtain ⟨hread, hap, hmatch⟩ := hq
  have hplan : bodyPlan (s.control d) q = [⟨reqNibble q.req, 0, true, none⟩] := by
    simp [bodyPlan, hread, hmatch, hap, hpost]
  have hafter : (s.control d).after q = { s.control d with check := false } := by
    simp [BatchControl.after, hread, hap, hmatch, hpost]
  rw [hplan] at h
  have hmade := accessEmit_made (d := d) ((reqNibble_rnw q.req).trans hread) h
  have hcollect : collect d q.req s = accessEmit d (reqNibble q.req) s := if_pos ⟨hread, hap, hmatch⟩
  have hplain : plainRead d q.req (accessEmit d (reqNibble q.req) s) = accessEmit d (reqNibble q.req) s := by
    have hposted : ((accessEmit d (reqNibble q.req) s).dap d).batch.postRead = true :=
      (congrArg BatchControl.post hmade.control).trans hpost
    rw [plainRead, if_pos hap, if_pos hposted]
  have heq : oneRequest d q s = requestBody d q (accessEmit d (reqNibble q.req) s) := by
    have hposted : (s.dap d).batch.postRead = true := hpost
    simp only [oneRequest, hposted, if_true, hcollect]
    exact if_pos hmade.ok
  rw [heq, hafter]
  refine hmade.trans fun later hlater => ?_
  rw [← hmade.control]
  exact requestBody_read hread ((if_neg hmatch).trans hplain) (hlater.none_made hmade.ok)

/-- A posted read is collected by RDBUFF before any other request (R232). -/
theorem oneRequest_collects (hpost : (s.control d).post = true) (hq : ¬ PostsRead q)
    (h : Answers s (⟨rdbuff, 0, true, none⟩ :: (bodyPlan (s.control d) q ++ left)) runs rest) :
    Made d s (oneRequest d q s) ((s.control d).after q) left runs rest := by
  have hmade := (accessEmit_made (d := d) (r := rdbuff) (by decide) h).setPostRead false
  have hcollect : collect d q.req s = (accessEmit d rdbuff s).setPostRead d false := if_neg hq
  have heq : oneRequest d q s = requestBody d q ((accessEmit d rdbuff s).setPostRead d false) := by
    have hposted : (s.dap d).batch.postRead = true := hpost
    simp only [oneRequest, hposted, if_true, hcollect]
    exact if_pos hmade.ok
  have hplan : bodyPlan { s.control d with post := false } q = bodyPlan (s.control d) q := by
    unfold bodyPlan
    split
    · split
      · rfl
      · rename_i hread hmatch
        have hdp : ¬ reqIsAp q.req = true := fun hap => hq ⟨hread, hap, hmatch⟩
        rw [if_neg hdp, if_neg hdp]
    · rfl
  rw [heq]
  refine hmade.trans fun later hlater => ?_
  rw [← hplan, ← hmade.control] at hlater
  have hbody := requestBody_made (congrArg BatchControl.post hmade.control) hlater
  rw [hmade.control] at hbody
  exact hbody

/-- One request makes its accesses (R231, R232). -/
theorem oneRequest_made (h : Answers s (collectPlan (s.control d) q ++ (bodyPlan (s.control d) q ++ left)) runs rest) :
    Made d s (oneRequest d q s) ((s.control d).after q) left runs rest := by
  by_cases hpost : (s.control d).post = true
  · by_cases hq : PostsRead q
    · rw [collectPlan, if_neg fun hc => hc.2 hq] at h
      exact oneRequest_posted hpost hq h
    · rw [collectPlan, if_pos ⟨hpost, hq⟩] at h
      exact oneRequest_collects hpost hq h
  · have hunposted : (s.dap d).batch.postRead = false := Bool.eq_false_of_not_eq_true hpost
    rw [collectPlan, if_neg fun hc => hpost hc.1] at h
    rw [oneRequest, hunposted]
    exact requestBody_made hunposted h

/-! ## The batch -/

/-- The registers after requests that all ended OK (R231). -/
def BatchControl.afterAll (c : BatchControl) : List XferReq → BatchControl
  | [] => c
  | q :: qs => { c.after q with count := c.count + 1 }.afterAll qs

@[simp] theorem BatchControl.afterAll_mask (c : BatchControl) (qs : List XferReq) :
    (c.afterAll qs).mask = lastMask c.mask qs := by
  induction qs generalizing c with
  | nil => rfl
  | cons q qs ih => exact ih _

@[simp] theorem BatchControl.afterAll_count (c : BatchControl) (qs : List XferReq) :
    (c.afterAll qs).count = c.count + qs.length := by
  induction qs generalizing c with
  | nil => rfl
  | cons q qs ih =>
    rw [BatchControl.afterAll, ih, List.length_cons]
    dsimp only
    omega

/-- The requests of a batch make the accesses of their plan, one after another (R231). -/
theorem transferLoop_made {qs : List XferReq} (hok : qs = [] → s.respValue d = ackOk)
    (h : Answers s ((s.control d).plan qs) runs rest) :
    Made d s (transferLoop d qs s) ((s.control d).afterAll qs) (((s.control d).afterAll qs).plan []) runs rest := by
  induction qs generalizing s runs with
  | nil => exact h.none_made (hok rfl)
  | cons q qs ih =>
    rw [BatchControl.plan_cons] at h
    have hone := (oneRequest_made h).countOne
    have heq : transferLoop d (q :: qs) s = transferLoop d qs ((oneRequest d q s).countOne d) :=
      if_pos (oneRequest_made h).ok
    rw [heq]
    refine hone.trans fun later hlater => ?_
    have hrest := ih (s := (oneRequest d q s).countOne d) (fun _ => hone.ok) (by rw [hone.control]; exact hlater)
    rw [hone.control] at hrest
    exact hrest

/-- The registers after the finish of a batch (R235). -/
def BatchControl.finished (c : BatchControl) : BatchControl :=
  if c.post then { c with post := false } else if c.check then { c with check := false } else c

theorem BatchControl.finished_mask (c : BatchControl) : c.finished.mask = c.mask := by
  unfold BatchControl.finished
  split
  · rfl
  · split <;> rfl

theorem BatchControl.finished_count (c : BatchControl) : c.finished.count = c.count := by
  unfold BatchControl.finished
  split
  · rfl
  · split <;> rfl

/-- The finish of a batch that has ended OK so far (R235). -/
theorem transferFinish_ok (hok : s.respValue d = ackOk) : transferFinish d s =
    if (s.control d).post then (accessEmit d rdbuff s).setPostRead d false
    else if (s.control d).check then (access d rdbuff 0 s).2.setCheckWrite d false
    else s :=
  if_neg (not_not.mpr hok)

/-- The finish of a batch collects its posted read or confirms its last write (R235). -/
theorem transferFinish_made (hok : s.respValue d = ackOk) (h : Answers s ((s.control d).plan []) runs rest) :
    Made d s (transferFinish d s) (s.control d).finished [] runs rest := by
  rw [transferFinish_ok hok, BatchControl.finished]
  rw [BatchControl.plan, accessPlan] at h
  split
  · rename_i hpost
    rw [if_pos hpost] at h
    exact (accessEmit_made (by decide) h).setPostRead false
  · rename_i hpost
    rw [if_neg hpost] at h
    split
    · rename_i hcheck
      rw [if_pos hcheck] at h
      exact (access_made (a := ⟨rdbuff, 0, false, none⟩) rfl h).setCheckWrite false
    · rename_i hcheck
      rw [if_neg hcheck] at h
      exact h.none_made hok

/-- The whole batch makes the accesses of its plan, and counts all its requests (R231, R236). -/
theorem transferBatch_made {reqs : List XferReq} (hne : reqs ≠ [])
    (h : Answers s (accessPlan (s.dap d).matchMask false false reqs) runs rest) :
    PlanRun d (batchStart d s) (transferBatch d reqs s) runs ∧ (transferBatch d reqs s).draws.swdio = rest ∧
      (transferBatch d reqs s).respValue d = ackOk ∧
      ((transferBatch d reqs s).dap d).batch.respCount = reqs.length ∧
      ((transferBatch d reqs s).dap d).matchMask = lastMask (s.dap d).matchMask reqs := by
  have hcontrol : (batchStart d s).control d = ⟨(s.dap d).matchMask, false, false, 0⟩ := by
    rw [State.control, batchStart_dap]
    rfl
  have hstart : Answers (batchStart d s) (((batchStart d s).control d).plan reqs) runs rest := by
    rw [hcontrol]
    exact ⟨h.plan, h.accepted, by rw [batchStart_draws, h.draws]⟩
  have hloop := transferLoop_made (fun hnil => absurd hnil hne) hstart
  have hmade := hloop.trans fun later hlater =>
    transferFinish_made hloop.ok (by rw [hloop.control]; exact hlater)
  obtain ⟨hrun, hdraws⟩ := hmade.all
  have hfinal := hmade.control
  rw [hloop.control, hcontrol] at hfinal
  refine ⟨hrun, hdraws, hmade.ok, ?_, ?_⟩
  · have hcount := congrArg BatchControl.count hfinal
    rwa [BatchControl.finished_count, BatchControl.afterAll_count, Nat.zero_add] at hcount
  · have hmask := congrArg BatchControl.mask hfinal
    rwa [BatchControl.finished_mask, BatchControl.afterAll_mask] at hmask

end

/-- The command makes the accesses of its plan and answers their words (R231). -/
theorem execDapTransfer_planned {s : State} {d : DapCh} {reqs : List XferReq} {runs : Answered} {rest : List Bool}
    (idx : Byte) (hcan : s.CanLease d.chan) (hconn : (s.dap d).dapState ≠ .disconnected) (hne : reqs ≠ [])
    (h : Answers s (accessPlan (s.dap d).matchMask false false reqs) runs rest) :
    ∃ t, exec (.dapTransfer d idx reqs) s = .next t ∧
      t.response d.chan = some (0x05 :: BitVec.ofNat 8 reqs.length :: 0x01 :: Answered.words runs) ∧
      t.draws.swdio = rest ∧ (t.dap d).matchMask = lastMask (s.dap d).matchMask reqs ∧
      t.log = gains (some d.chan) (Answered.events runs (s.dap d)) ((s.leased d.chan).busStart d).log := by
  have hleased : Answers (s.leased d.chan) (accessPlan ((s.leased d.chan).dap d).matchMask false false reqs) runs
      rest := ⟨by rw [State.leased_dap, h.plan], h.accepted, by rw [State.leased_draws, h.draws]⟩
  obtain ⟨hrun, hdraws, hok, hcount, hmask⟩ := transferBatch_made hne hleased
  have hevents : packetEvents ((batchStart d (s.leased d.chan)).dap d) = packetEvents (s.dap d) := by
    rw [batchStart_dap, State.leased_dap]
    rfl
  have hout : ((transferBatch d reqs (s.leased d.chan)).dap d).batch.out = Answered.words runs := by
    rw [hrun.out, batchStart_dap]
    rfl
  refine ⟨_, execDapTransfer_connected idx reqs hcan hconn, ?_, ?_, ?_, ?_⟩
  · rw [State.respond_response, transferReply, hok, hcount, hout]
    rfl
  · rw [State.respond_draws, hdraws]
  · rw [State.respond_dap, hmask, State.leased_dap]
  · rw [State.respond_log, hrun.log, batchStart_owner, batchStart_log, hcan.leased_owner, Answered.events, hevents]
    rfl

/-! ## A batch of AP reads -/

/-- An access that reads, and waits for no value. -/
def Access.Reads (a : Access) : Prop := a.nibble.getLsbD 1 = true ∧ a.wdata = 0 ∧ a.wants = none

/-- The answers `vs` to accesses that read. -/
theorem answered_reads {plan : List Access} (hreads : ∀ a ∈ plan, a.Reads) {vs : List Word}
    (hlen : vs.length = plan.length) (x : DapRegs) :
    Answered.bits (List.zip plan vs) = vs.flatMap okRead ∧
      Answered.events (List.zip plan vs) x =
        (List.zip (plan.map Access.nibble) vs).flatMap (fun y => packetEvents x y.1 0 (okRead y.2)) ∧
      ∀ y ∈ List.zip plan vs, y.1.accepts y.2 = true := by
  induction plan generalizing vs with
  | nil =>
    obtain rfl := List.length_eq_zero_iff.mp hlen
    exact ⟨rfl, rfl, nofun⟩
  | cons a plan ih =>
    obtain ⟨v, vs, rfl⟩ := List.exists_cons_of_length_eq_add_one hlen
    obtain ⟨⟨hread, hwdata, hwants⟩, hplan⟩ := List.forall_mem_cons.mp hreads
    obtain ⟨hbits, hevents, haccepts⟩ := ih hplan (by simpa using hlen)
    have hanswer : a.answerBits v = okRead v := if_pos hread
    refine ⟨?_, ?_, List.forall_mem_cons.mpr ⟨by simp [Access.accepts, hwants], haccepts⟩⟩
    · rw [List.flatMap_cons, ← hbits, ← hanswer]
      rfl
    · show packetEvents x a.nibble a.wdata (a.answerBits v) ++ Answered.events (List.zip plan vs) x = _
      rw [hevents, hanswer, hwdata]
      rfl

/-- Accesses that are all answered give all their words. -/
theorem answered_words {plan : List Access} (hemits : ∀ a ∈ plan, a.emits = true) {vs : List Word}
    (hlen : vs.length = plan.length) : Answered.words (List.zip plan vs) = vs.flatMap le32 := by
  have hall : (List.zip plan vs).filter (fun y => y.1.emits) = List.zip plan vs :=
    List.filter_eq_self.mpr fun y hy => hemits _ (List.of_mem_zip hy).1
  rw [Answered.words, hall, ← List.flatMap_map (f := Prod.snd) (g := le32), List.map_snd_zip hlen.le]

/-- An AP read as a request, whatever its ignored bits (R93). -/
def apReadRequest (x : BitVec 3 × BitVec 2) : XferReq := ⟨x.1 ++ 0#1 ++ swdNibble true true x.2, none⟩

theorem apReadRequest_byte : ∀ (high : BitVec 3) (a : BitVec 2),
    let req : Byte := high ++ 0#1 ++ swdNibble true true a
    (reqIsRead req = true ∧ reqIsAp req = true ∧ ¬ reqIsMatch req = true) ∧ reqNibble req = swdNibble true true a := by
  decide

theorem apReadRequest_posts (x : BitVec 3 × BitVec 2) : PostsRead (apReadRequest x) := (apReadRequest_byte x.1 x.2).1

@[simp] theorem apReadRequest_nibble (x : BitVec 3 × BitVec 2) :
    reqNibble (apReadRequest x).req = swdNibble true true x.2 := (apReadRequest_byte x.1 x.2).2

/-- The access of an AP read, which answers the word of the one before it where that was posted (R233). -/
def apReadAccess (emits : Bool) (x : BitVec 3 × BitVec 2) : Access := ⟨swdNibble true true x.2, 0, emits, none⟩

/-- The accesses after a posted AP read, with the RDBUFF read at the end (R233, R235). -/
def apReadsAfter (as : List (BitVec 3 × BitVec 2)) : List Access :=
  as.map (apReadAccess true) ++ [⟨rdbuff, 0, true, none⟩]

theorem accessPlan_apReads_posted (mask : Word) (check : Bool) (as : List (BitVec 3 × BitVec 2)) :
    accessPlan mask true check (as.map apReadRequest) = apReadsAfter as := by
  induction as generalizing check with
  | nil => rfl
  | cons a as ih =>
    obtain ⟨hread, hap, hmatch⟩ := apReadRequest_posts a
    simp [accessPlan_cons, hread, hap, hmatch, ih, apReadAccess, apReadsAfter]

/-- A batch of AP reads posts the first, whose word is stale (R105, R233). -/
theorem accessPlan_apReads (mask : Word) (a : BitVec 3 × BitVec 2) (as : List (BitVec 3 × BitVec 2)) :
    accessPlan mask false false ((a :: as).map apReadRequest) = apReadAccess false a :: apReadsAfter as := by
  obtain ⟨hread, hap, hmatch⟩ := apReadRequest_posts a
  simp [accessPlan_cons, hread, hap, hmatch, accessPlan_apReads_posted, apReadAccess]

theorem apReadAccess_reads (emits : Bool) (a : BitVec 3 × BitVec 2) : (apReadAccess emits a).Reads :=
  ⟨(by decide : ∀ x : BitVec 2, (swdNibble true true x).getLsbD 1 = true) a.2, rfl, rfl⟩

theorem apReadsAfter_reads (as : List (BitVec 3 × BitVec 2)) : ∀ b ∈ apReadsAfter as, b.Reads ∧ b.emits = true := by
  intro b hb
  obtain hb | hb := List.mem_append.mp hb
  · obtain ⟨a, -, rfl⟩ := List.mem_map.mp hb
    exact ⟨apReadAccess_reads true a, rfl⟩
  · obtain rfl := List.mem_singleton.mp hb
    exact ⟨⟨by decide, rfl, rfl⟩, rfl⟩

/-- Settles O54: the plan of any batch, and the plan of a batch of AP reads. -/
theorem postedReadsPipelined : Obligations.PostedReadsPipelined := by
  refine ⟨fun s d idx reqs vs rest hcan hconn hne _ => ?_,
    fun s d idx as stale vs rest hcan hconn hne _ hlen hdraws => ?_⟩
  · intro plan runs hlen haccepted hdraws
    exact execDapTransfer_planned idx hcan hconn hne ⟨List.map_fst_zip hlen.ge, haccepted, hdraws⟩
  · obtain ⟨a, as, rfl⟩ := List.exists_cons_of_ne_nil hne
    have hafter := apReadsAfter_reads as
    have hreads : ∀ b ∈ apReadAccess false a :: apReadsAfter as, b.Reads :=
      List.forall_mem_cons.mpr ⟨apReadAccess_reads false a, fun b hb => (hafter b hb).1⟩
    have hcount : vs.length = (apReadsAfter as).length := by simpa [apReadsAfter] using hlen
    have hall : (stale :: vs).length = (apReadAccess false a :: apReadsAfter as).length := by simp [hcount]
    obtain ⟨hbits, hevents, haccepted⟩ := answered_reads hreads hall (s.dap d)
    obtain ⟨t, hexec, hresp, hrest, -, hlog⟩ := execDapTransfer_planned idx hcan hconn (by simp)
      (show Answers s (accessPlan _ false false ((a :: as).map apReadRequest)) _ rest from
        ⟨(List.map_fst_zip hall.ge).trans (accessPlan_apReads ..).symm, haccepted, by rw [hbits, hdraws]⟩)
    refine ⟨t, hexec, ?_, hrest, ?_⟩
    · have hwords : Answered.words (List.zip (apReadAccess false a :: apReadsAfter as) (stale :: vs)) =
          vs.flatMap le32 := answered_words (fun b hb => (hafter b hb).2) hcount
      rw [hresp, hwords, List.length_map]
    · rw [hlog, hevents]
      simp [apReadsAfter, apReadAccess, Function.comp_def, rdbuff]

end Sys2Proof.Machine
end

section
/-! SUPPORT. The Resource Arbiter's two answers to a channel (R125, R129): every command that takes the lease asks for it
first, and a release passes it on; and that a command in a state where it may run answers a next state (R124, R133). -/

namespace Sys2Proof.Machine

/-! ## Asking for the lease and giving it back -/

theorem leasedCommand_underLease (c : Chan) (k : State → Frame × State) (s : State) :
    ∃ j, leasedCommand c k s = underLease c j s := ⟨_, rfl⟩

/-- Every command that takes the lease, on CH0 outside a transaction, asks for it before it does anything else (R130,
R220). -/
theorem exec_takesLease {i : Instr} {s : State} (hlease : Instr.takesLease i = true)
    (htxn : Instr.chan i = .ch0 → s.brTxn = false) : ∃ k, exec i s = underLease (Instr.chan i) k s := by
  cases i with
  | spiBegin => exact ⟨_, if_neg (by simp [htxn rfl])⟩
  | bootload => exact ⟨_, if_neg (by simp [htxn rfl])⟩
  | setGpio pin level =>
    rw [takesLease_setGpio, Bool.and_eq_true, decide_eq_true_eq, Option.isSome_iff_exists] at hlease
    obtain ⟨hpin, v, hlevel⟩ := hlease
    simp only [exec, execSetGpio, hlevel]
    obtain hpin | hpin := hpin <;> rw [hpin] <;> exact ⟨_, if_neg (by simp [htxn rfl])⟩
  | spiExchange | spiEnd | getGpio | setClock | dapTransferAbort | swdDpWrite | swdApWrite | swdDpRead | swdApRead =>
    exact nomatch hlease
  | dapInfo | dapHostStatus | dapConnect | dapDisconnect | dapTransferConfigure | dapTransfer | dapTransferBlock
  | dapWriteAbort | dapDelay | dapResetTarget | dapSwjPins | dapSwjClock | dapSwjSequence | dapSwdConfigure =>
    simp only [exec, execDapInfo, execDapHostStatus, execDapConnect, execDapDisconnect, execDapTransferConfigure,
      execDapTransfer, execDapTransferBlock, execDapWriteAbort, execDapDelay, execDapResetTarget, execDapSwjPins,
      execDapSwjClock, execDapSwjSequence, execDapSwdConfigure]
    exact leasedCommand_underLease _ _ s

/-- A channel that asks for a lease that another one holds waits at the end of PENDING (R125). -/
theorem underLease_held {c x : Chan} {s : State} (k : State → State) (howner : s.owner = some x) (hx : x ≠ c)
    (hpending : c ∉ s.pending) :
    underLease c k s = .next (State.setPhase { s with pending := s.pending ++ [c] } c .waiting) := by
  have hnot : s.owner ≠ some c := by simpa [howner] using hx
  refine underLease_next.mpr (.inr ⟨fun h => hnot h.2, hnot, hpending, ?_⟩)
  rw [State.acquire_held howner, if_neg (by simpa using hnot)]

/-- A command that takes a lease which another channel holds waits, whatever it is (R125, R130). -/
theorem exec_waits {i : Instr} {s : State} {x : Chan} (hlease : Instr.takesLease i = true) (howner : s.owner = some x)
    (hx : x ≠ Instr.chan i) (hpending : Instr.chan i ∉ s.pending) (htxn : Instr.chan i = .ch0 → s.brTxn = false) :
    exec i s =
      .next (State.setPhase { s with pending := s.pending ++ [Instr.chan i] } (Instr.chan i) .waiting) := by
  obtain ⟨k, hexec⟩ := exec_takesLease hlease htxn
  rw [hexec, underLease_held k howner hx hpending]

/-- Settles O15: such a command asks for the lease first, and asking for a held lease is a wait. -/
theorem leaseWait : Obligations.LeaseWait :=
  fun _ _ _ hlease howner hx hpending htxn => exec_waits hlease howner hx hpending htxn

/-- Settles O17: a release of another channel is refused, one with nobody waiting frees the lease, and any other passes
it on. -/
theorem releaseGrantsNext : Obligations.ReleaseGrantsNext := by
  refine ⟨fun s c howner => if_neg howner, fun s c howner hpending => ?_, fun s c x xs howner hpending hx => ?_⟩
  · rw [State.release_nobody howner hpending]
    rfl
  · rw [State.release_waiting howner hpending hx]

/-! ## Commands that answer -/

/-- A channel that was granted the lease, or neither holds nor awaits it, may take it (R124). -/
theorem underLease_answers {c : Chan} {s : State} (k : State → State)
    (h : ((s.front c).phase = .granted ∧ s.owner = some c) ∨ (s.owner ≠ some c ∧ c ∉ s.pending)) :
    ∃ t, underLease c k s = .next t := by
  obtain ⟨hphase, howner⟩ | ⟨howner, hpending⟩ := h
  · exact ⟨_, underLease_next.mpr (.inl ⟨hphase, howner, rfl⟩)⟩
  · exact ⟨_, underLease_next.mpr (.inr ⟨fun hg => howner hg.2, howner, hpending, rfl⟩)⟩

theorem onBus_owner {c : Chan} {s : State} (k : State → State) (howner : s.owner = some c) :
    onBus c k s = .next (k s) := if_pos howner

/-- Inside a transaction the bridge owns the lease and the pins are in SPI mode (R37, R153, R155). -/
def State.TxnReady (s : State) : Prop := s.brTxn = true → s.owner = some .ch0 ∧ s.pinMode = .spi

theorem execSpiExchange_answers {s : State} (data : List Byte) (h : s.TxnReady) :
    ∃ t, execSpiExchange data s = .next t := by
  cases htxn : s.brTxn with
  | false => exact ⟨_, if_pos htxn⟩
  | true =>
    obtain ⟨howner, hmode⟩ := h htxn
    simp [execSpiExchange, htxn, howner, hmode]

theorem execSpiEnd_answers {s : State} (h : s.TxnReady) : ∃ t, execSpiEnd s = .next t := by
  cases htxn : s.brTxn with
  | false => exact ⟨_, if_pos htxn⟩
  | true => exact ⟨_, (if_neg (by simp [htxn])).trans (onBus_owner _ (h htxn).1)⟩

/-- SET_GPIO answers where it takes no lease now: an error, or a write inside the transaction (R164). -/
theorem execSetGpio_answers {s : State} {pin level : Byte} (h : s.TxnReady)
    (hlease : s.needsLease (.setGpio pin level) = false) : ∃ t, execSetGpio pin level s = .next t := by
  rw [State.needsLease, takesLease_setGpio] at hlease
  unfold execSetGpio
  split
  · rename_i p v hpin hlevel
    cases htxn : s.brTxn with
    | true =>
      have hbus (k : State → State) : ∃ t, onBus .ch0 k s = .next t := ⟨_, onBus_owner k (h htxn).1⟩
      cases p <;> simp only [setOutput, htxn, if_true, Bool.true_eq_false, if_false] <;> exact hbus _
    | false =>
      cases p with
      | csN => exact ⟨_, if_pos htxn⟩
      | resetN => simp [hpin, hlevel, htxn] at hlease
      | powerEn => simp [hpin, hlevel, htxn] at hlease
  · exact ⟨_, rfl⟩

theorem execGetGpio_answers (pin : Byte) (s : State) : ∃ t, execGetGpio pin s = .next t := by
  unfold execGetGpio
  split <;> exact ⟨_, rfl⟩

theorem execSetClock_answers (hz : Word) (s : State) : ∃ t, execSetClock hz s = .next t := by
  unfold execSetClock
  split <;> exact ⟨_, rfl⟩

/-- A frame's command that takes no lease now answers. -/
theorem exec_answers_offLease {i : Instr} {s : State} (hi : Laws.tableChan i ≠ none) (h : s.TxnReady)
    (hlease : s.needsLease i = false) : ∃ t, exec i s = .next t := by
  have htxn (hchan : Instr.chan i = .ch0) (htakes : Instr.takesLease i = true) : s.brTxn = true := by
    simpa [State.needsLease, hchan, htakes] using hlease
  cases i with
  | spiBegin => exact ⟨_, if_pos (htxn rfl rfl)⟩
  | bootload => exact ⟨_, (if_pos (htxn rfl rfl)).trans (onBus_owner _ (h (htxn rfl rfl)).1)⟩
  | setGpio => exact execSetGpio_answers h hlease
  | spiExchange data => exact execSpiExchange_answers data h
  | spiEnd => exact execSpiEnd_answers h
  | getGpio pin => exact execGetGpio_answers pin s
  | setClock hz => exact execSetClock_answers hz s
  | dapTransferAbort => exact ⟨_, rfl⟩
  | swdDpWrite | swdApWrite | swdDpRead | swdApRead => exact absurd rfl hi
  | dapInfo d | dapHostStatus d | dapConnect d | dapDisconnect d | dapTransferConfigure d | dapTransfer d
  | dapTransferBlock d | dapWriteAbort d | dapDelay d | dapResetTarget d | dapSwjPins d | dapSwjClock d
  | dapSwjSequence d | dapSwdConfigure d => cases d <;> exact nomatch hlease

/-- A frame's command answers if its channel may take the lease that it takes (R124). -/
theorem exec_answers {i : Instr} {s : State} (hi : Laws.tableChan i ≠ none) (h : s.TxnReady)
    (hlease : s.needsLease i = true → ((s.front (Instr.chan i)).phase = .granted ∧ s.owner = some (Instr.chan i)) ∨
      (s.owner ≠ some (Instr.chan i) ∧ Instr.chan i ∉ s.pending)) : ∃ t, exec i s = .next t := by
  cases hneeds : s.needsLease i with
  | false => exact exec_answers_offLease hi h hneeds
  | true =>
    have hmay := hlease hneeds
    rw [State.needsLease, Bool.and_eq_true, Bool.not_eq_true', Bool.and_eq_false_imp] at hneeds
    obtain ⟨htakes, htxn⟩ := hneeds
    obtain ⟨k, hexec⟩ := exec_takesLease htakes fun hchan => htxn (by simp [hchan])
    rw [hexec]
    exact underLease_answers k hmay

/-- What the frame in a slot asks for, by its instruction. -/
theorem State.wantsLease_decode {s : State} {c : Chan} {f : Frame} {i : Instr} (hrx : (s.front c).rx = some f)
    (hdecode : decode s.cfg (.frame c f) = .ok i) : s.wantsLease c = s.needsLease i := by
  have hchan := Instr.chan_of_tableChan (decode_frame_chan s.cfg c f i hdecode)
  simp [State.wantsLease, State.needsLease, hrx, hdecode, hchan]

/-- A frame answers if its channel may take the lease that the frame asks for; a malformed one always does (R81). -/
theorem runFrame_answers {c : Chan} {f : Frame} {s : State} (hrx : (s.front c).rx = some f) (h : s.TxnReady)
    (hlease : s.wantsLease c = true → ((s.front c).phase = .granted ∧ s.owner = some c) ∨
      (s.owner ≠ some c ∧ c ∉ s.pending)) : ∃ t, runFrame c f s = .next t := by
  cases hdecode : decode s.cfg (.frame c f) with
  | error e => exact ⟨_, by rw [runFrame, hdecode]⟩
  | ok i =>
    have htable := decode_frame_chan s.cfg c f i hdecode
    rw [runFrame_ok hdecode]
    refine exec_answers (by simp [htable]) h fun hneeds => ?_
    rw [Instr.chan_of_tableChan htable]
    exact hlease (State.wantsLease_decode hrx hdecode ▸ hneeds)

end Sys2Proof.Machine
end

section
/-! SUPPORT. No step from a state with the invariant faults or is refused (R124, R133, R292): each part of a step answers,
and within one cycle the lease keeps its reason for every channel that has still to step. -/

namespace Sys2Proof.Machine

/-! ## A step of a channel -/

/-- If `c` owns the lease, it does so for its frame or for the open transaction, and not after BOOTLOAD alone (R130). -/
def State.LeaseReason (s : State) (c : Chan) : Prop :=
  s.owner = some c → (s.front c).phase.holdsLease = true ∨ (c = .ch0 ∧ s.brTxn = true)

theorem State.Core.leaseReason {s : State} (h : s.Core) (hboot : s.bootReq = false) (c : Chan) : s.LeaseReason c :=
  fun howner => (h.lease.why c howner).resolve_left (by simp [hboot])

theorem State.Core.txnReady {s : State} (h : s.Core) : s.TxnReady :=
  fun htxn => ⟨h.lease.txnOwner htxn, (h.regs.txnPins htxn).1⟩

/-- Inside a transaction no frame of the bridge asks for a lease (R130). -/
theorem State.wantsLease_inTxn {s : State} (htxn : s.brTxn = true) : s.wantsLease .ch0 = false := by
  unfold State.wantsLease
  split
  · rfl
  · split <;> simp [htxn]

/-- In a state of the invariant a channel with a frame to begin, or to go on with, runs it (R121, R124). -/
theorem State.Core.runFrame_answers {s : State} {c : Chan} {f : Frame} (h : s.Core) (hreason : s.LeaseReason c)
    (hphase : (s.front c).phase = .idle ∨ (s.front c).phase = .granted) (hrx : (s.front c).rx = some f) :
    ∃ t, runFrame c f s = .next t := by
  refine Machine.runFrame_answers hrx h.txnReady fun hwants => ?_
  obtain hidle | hgranted := hphase
  · refine .inr ⟨fun howner => ?_, by rw [h.lease.waiting, hidle]; nofun⟩
    obtain hholds | ⟨rfl, htxn⟩ := hreason howner
    · exact absurd hholds (by simp [hidle, Phase.holdsLease])
    · simp [State.wantsLease_inTxn htxn] at hwants
  · exact .inl ⟨hgranted, h.lease.holder c (by rw [hgranted]; rfl)⟩

/-- In a state of the invariant a command that has run ends (R129, R220). -/
theorem State.Core.endCommand_answers {s : State} {c : Chan} {resp : Option Frame} {release : Bool} (h : s.Core)
    (hphase : (s.front c).phase = .ran resp release) : ∃ t, s.endCommand c = .next t := by
  have hlease (hrel : release = true) : s.owner = some c ∧ c ∉ s.pending ∧ s.pending.Nodup := by
    have howner := h.lease.holder c (by rw [hphase]; exact hrel)
    exact ⟨howner, h.lease.ownerNot c howner, h.lease.nodup⟩
  obtain ⟨t, ht, -⟩ := commandEnds s c resp release hphase hlease
  exact ⟨t, channelStep_ran hphase ▸ ht⟩

/-- In a state of the invariant a channel steps (R121). -/
theorem State.Core.channelStep_answers {s : State} {c : Chan} (h : s.Core) (hreason : s.LeaseReason c) :
    ∃ t, channelStep c s = .next t := by
  cases hphase : (s.front c).phase with
  | waiting => exact ⟨s, by simp [channelStep, hphase]⟩
  | ran resp release => exact channelStep_ran hphase ▸ h.endCommand_answers hphase
  | granted =>
    obtain ⟨f, hrx⟩ := Option.ne_none_iff_exists'.mp (State.rx_of_wantsLease (h.waiters c (.inr hphase)))
    exact channelStep_granted hphase hrx ▸ h.runFrame_answers hreason (.inr hphase) hrx
  | idle =>
    cases hrx : (s.front c).rx with
    | none => exact ⟨s, by simp [channelStep, hphase, hrx]⟩
    | some f =>
      cases hbusy : (s.front c).busy with
      | true => exact ⟨s, by simp [channelStep, hphase, hrx, hbusy]⟩
      | false =>
        have htaken : (s.takeFrame c).front c = { s.front c with busy := true } := State.setFront_front_self ..
        rw [channelStep_idle hphase hbusy hrx]
        refine State.Core.runFrame_answers (h.setFront rfl fun _ => rfl) ?_ (.inl (by rw [htaken, hphase]))
          (by rw [htaken, hrx])
        rw [State.LeaseReason, htaken, State.takeFrame, State.setFront_owner, State.setFront_brTxn]
        exact hreason

/-! ## The cycle -/

theorem State.arbitrate_owner (s : State) (x : Chan) (h : s.arbitrate.owner = some x) :
    s.owner = some x ∨ (s.arbitrate.front x).phase = .granted := by
  obtain ⟨y, ys, -, -, hgrant⟩ | ⟨-, hsame⟩ := s.arbitrate_cases
  · rw [hgrant] at h ⊢
    rw [State.grant_owner, Option.some_inj] at h
    subst h
    exact .inr (by rw [State.grant_front_self])
  · exact .inl (hsame ▸ h)

/-- Another channel that owns the lease after a command of `c` owned it before. -/
theorem CommandOutcome.other_owner {c x : Chan} {s t : State} {lease : Bool} (h : CommandOutcome c s lease t)
    (hx : x ≠ c) (howner : t.owner = some x) : s.owner = some x ∨ (t.front x).phase = .granted := by
  have hself {u : State} (hu : u.owner = some c) : u.owner ≠ some x := by simpa [hu] using hx.symm
  cases h with
  | answers resp _ hoff => exact .inl (by rw [State.respond_owner, hoff.frame] at howner; exact howner)
  | waits => exact (State.arbitrate_owner _ x howner).imp_left fun h => by simpa using h
  | runs resp release hstart hrun =>
    rw [State.respond_owner, hrun.action.owner] at howner
    exact absurd howner (hself hstart.owner)
  | boots hc hstart =>
    subst hc
    rw [bootTrigger_eq hstart.owner] at howner
    exact absurd howner (hself hstart.owner)

/-- Another channel that owns the lease after a step of `c` owned it before, or was granted it. -/
theorem PacedOutcome.other_owner {c x : Chan} {hold : Nat} {s t : State} (h : PacedOutcome c hold s t) (hx : x ≠ c)
    (howner : t.owner = some x) : s.owner = some x ∨ (t.front x).phase = .granted := by
  cases h with
  | rests => exact .inl howner
  | @runs u t hbegin hout =>
    have hbus := u.holdBack_bus t c hold
    rw [hbus.owner] at howner
    rw [hbus.front]
    have husame : u.owner = s.owner := by
      obtain ⟨-, ⟨-, -, rfl⟩ | ⟨-, rfl⟩⟩ := hbegin
      · exact State.setFront_owner ..
      · rfl
    exact husame ▸ hout.other_owner hx howner
  | ends resp release hphase hend =>
    obtain ⟨v, rfl, ⟨-, rfl⟩ | ⟨-, -, rfl⟩⟩ := State.endCommand_next hphase hend
    · rw [State.setFront_owner, (s.finishBus_bus c).owner] at howner
      exact .inl howner
    · rw [State.setFront_owner] at howner
      rw [State.setFront_front_ne _ _ hx]
      exact (State.arbitrate_owner _ x howner).imp_left nofun

/-- A step of `c` leaves every other channel a reason for the lease it owns. -/
theorem PacedOutcome.leaseReason {c x : Chan} {hold : Nat} {s t : State} (h : PacedOutcome c hold s t) (hx : x ≠ c)
    (hreason : s.LeaseReason x) : t.LeaseReason x := by
  intro howner
  obtain hkept | hgranted := h.other_owner hx howner
  · obtain hsame | ⟨-, -, hgrant⟩ := h.isolated.fronts x hx
    · refine (hreason hkept).imp (fun hholds => hsame ▸ hholds) fun ⟨hx0, htxn⟩ => ⟨hx0, ?_⟩
      rw [(h.isolated.bridge fun hc => hx (hx0.trans hc.symm)).1, htxn]
    · exact .inl (by rw [hgrant]; rfl)
  · exact .inl (by rw [hgranted]; rfl)

theorem roundRobin_nodup (last : Chan) : (roundRobin last).Nodup := by cases last <;> decide

/-- The channels of `order` step one after another. -/
def stepsInOrder (hold : Nat) (order : List Chan) (s : State) : Result :=
  order.foldl (fun o c => andThen o (pacedStep hold c)) (.next s)

theorem runCycle_eq (hold : Nat) (cs : List Chan) (s : State) :
    runCycle hold cs s = stepsInOrder hold ((roundRobin s.lastGrant).filter (· ∈ cs)) s := rfl

theorem stepsInOrder_cons {hold : Nat} {c : Chan} {order : List Chan} {s t : State} (h : pacedStep hold c s = .next t) :
    stepsInOrder hold (c :: order) s = stepsInOrder hold order t := by
  rw [stepsInOrder, List.foldl_cons, andThen_next_left, h]
  rfl

/-- The channels of a cycle all step, one after another (R127). -/
theorem runCycle_answers {s : State} (h : s.Inv) (hboot : s.bootReq = false) (hold : Nat) (cs : List Chan) :
    ∃ t, runCycle hold cs s = .next t := by
  have hsteps (order : List Chan) (u : State) (hu : u.Inv) (hnodup : order.Nodup)
      (hreason : ∀ c ∈ order, u.LeaseReason c) : ∃ t, stepsInOrder hold order u = .next t := by
    induction order generalizing u with
    | nil => exact ⟨u, rfl⟩
    | cons c order ih =>
      obtain ⟨hc, hrest⟩ := List.forall_mem_cons.mp hreason
      obtain ⟨hnot, hnodup⟩ := List.nodup_cons.mp hnodup
      obtain ⟨v, hv⟩ := (u.inv_iff.mp hu).1.channelStep_answers hc
      have hpaced : pacedStep hold c u = .next (u.holdBack c hold v) := by rw [pacedStep, hv, andThen_next_left]
      have hout := pacedStep_outcome hpaced
      rw [stepsInOrder_cons hpaced]
      exact ih _ (hout.inv hu) hnodup fun x hx => hout.leaseReason (fun hxc => hnot (hxc ▸ hx)) (hrest x hx)
  rw [runCycle_eq]
  exact hsteps _ s h ((roundRobin_nodup s.lastGrant).filter _) fun c _ => (s.inv_iff.mp h).1.leaseReason hboot c

/-! ## The moves -/

/-- In a state of the invariant a detach ends what its channel is doing (R131). -/
theorem State.Core.detachCommand_answers {s : State} (h : s.Core) (hboot : s.bootReq = false) (c : Chan) :
    ∃ t, Machine.detachCommand c s = .next t := by
  unfold Machine.detachCommand
  split
  · exact ⟨_, rfl⟩
  · split
    · rename_i f hphase hrx
      obtain ⟨u, hu⟩ := h.runFrame_answers (h.leaseReason hboot c) (.inr hphase) hrx
      have hout := runFrame_outcome hrx hu
      rw [hu, andThen_next_left]
      obtain hidle | ⟨resp, release, hran⟩ := hout.phase_of_granted h hphase
      · exact ⟨u, State.endCommand_idle hidle⟩
      · exact (hout.core h (.inr hphase)).endCommand_answers hran
    · rename_i hphase
      exact h.endCommand_answers hphase
    all_goals exact ⟨_, rfl⟩

/-- The cleanup of R131 answers, as the bridge owns the lease of an open transaction (R37). -/
theorem State.Core.detachCleanup_answers {s : State} (h : s.Core) (c : Chan) : ∃ t, s.detachCleanup c = .next t := by
  unfold State.detachCleanup
  split
  · rename_i hopen
    have howner := h.lease.txnOwner hopen.2
    have hclosed : State.owner { s.csWrite true with brTxn := false } = some .ch0 := by
      rw [State.csWrite_eq]; exact howner
    rw [onBus_owner _ howner, andThen_next_left, State.release_next.mpr ⟨hclosed, rfl⟩]
    exact ⟨_, rfl⟩
  · exact ⟨_, rfl⟩

/-- A detach of an attached channel, as the end of what the channel does and the cleanup (R131). -/
theorem detachStep_answers {s : State} {c : Chan} (h : s.Inv) (hboot : s.bootReq = false) :
    ∃ t, detachStep c s = .next t := by
  obtain ⟨hcore, hwf⟩ := s.inv_iff.mp h
  unfold detachStep
  split
  · have hlink : (s.setFront c { s.front c with link := .detached }).Core := hcore.setFront rfl fun _ => rfl
    obtain ⟨u, hu⟩ := hlink.detachCommand_answers (by rw [State.setFront_bootReq, hboot]) c
    obtain ⟨hucore, -⟩ := hlink.detachCommand hu fun x hx => by
      rw [State.setFront_front_ne _ _ hx]; exact hwf x
    rw [hu]
    exact hucore.detachCleanup_answers c
  · exact ⟨s, rfl⟩

/-- Every move from a state with the invariant answers a next state. -/
theorem applyMove_answers {s : State} (h : s.Inv) (m : Move) : ∃ t, applyMove m s = .next t := by
  have hservice {o : Result} (ho : s.bootReq = false → ∃ t, o = .next t) :
      ∃ t, (if s.bootReq = true then .next s else o) = .next t := by
    split
    · exact ⟨s, rfl⟩
    · rename_i hboot
      exact ho (by simpa using hboot)
  cases m with
  | reset => exact ⟨_, rfl⟩
  | arrive | attach | timeout | bus => exact hservice fun _ => ⟨_, rfl⟩
  | detach c arriving =>
    refine hservice fun hboot => ?_
    obtain ⟨t, ht⟩ := detachStep_answers (c := c) h hboot
    rw [ht]
    cases arriving <;> exact ⟨_, rfl⟩
  | run cs hold => exact hservice fun hboot => runCycle_answers h hboot hold cs
  | engine => exact hservice fun _ => ⟨s, by rw [engineStep, h.portEmpty]⟩

/-- Settles O12: taking the next move keeps the invariant, and every move answers from a state with it. -/
theorem stepNeverStops : Obligations.StepNeverStops :=
  fun _ h => applyMove_answers (nextMove_inv h) _

end Sys2Proof.Machine
end

section
/-! SUPPORT. The requests of one cycle (R121, R125 to R127): a channel that asks for the lease in the cycle waits if the
lease is held, and is granted it if the lease is free; the others find it held. -/

namespace Sys2Proof.Machine

/-! ## A channel that asks for the lease -/

/-- The channel is idle with a frame that takes the lease, and does not wait yet (R121, R125). -/
structure State.Requests (s : State) (c : Chan) : Prop where
  notWaiting : c ∉ s.pending
  idle : (s.front c).phase = .idle
  free : (s.front c).busy = false
  wants : s.wantsLease c = true

@[simp] theorem State.takeFrame_wantsLease (s : State) (c : Chan) : (s.takeFrame c).wantsLease c = s.wantsLease c :=
  State.wantsLease_congr (by rw [State.takeFrame, State.setFront_front_self]) (State.setFront_cfg ..)
    fun _ => State.setFront_brTxn ..

/-- The step of a channel that asks for the lease runs its frame, which asks before it does anything else. -/
theorem State.Requests.channelStep {s : State} {c : Chan} (h : s.Requests c) :
    ∃ f k, ((s.takeFrame c).front c).rx = some f ∧ Machine.channelStep c s = runFrame c f (s.takeFrame c) ∧
      runFrame c f (s.takeFrame c) = underLease c k (s.takeFrame c) := by
  have hrx : (s.front c).rx ≠ none := State.rx_of_wantsLease h.wants
  obtain ⟨f, hrx⟩ := Option.ne_none_iff_exists'.mp hrx
  have htaken : ((s.takeFrame c).front c).rx = some f := by rw [State.takeFrame, State.setFront_front_self, hrx]
  have hwants := h.wants
  rw [← State.takeFrame_wantsLease] at hwants
  cases hdecode : decode (s.takeFrame c).cfg (.frame c f) with
  | error e => simp [State.wantsLease, htaken, hdecode] at hwants
  | ok i =>
    have hchan := Instr.chan_of_tableChan (decode_frame_chan _ c f i hdecode)
    rw [State.wantsLease_decode htaken hdecode, State.needsLease, Bool.and_eq_true, Bool.not_eq_true',
      Bool.and_eq_false_imp] at hwants
    obtain ⟨htakes, htxn⟩ := hwants
    obtain ⟨k, hexec⟩ := exec_takesLease htakes fun hc => htxn (by simp [hc])
    rw [hchan] at hexec
    exact ⟨f, k, htaken, channelStep_idle h.idle h.free hrx, (runFrame_ok hdecode).trans hexec⟩

/-- A step of another channel leaves the request as it is. -/
theorem State.Requests.isolated {s t : State} {c x : Chan} (h : s.Requests x) (hiso : Isolated c s t) (hx : x ≠ c)
    (hpending : x ∉ t.pending) : t.Requests x := by
  have hfront : t.front x = s.front x := (hiso.fronts x hx).resolve_right fun hgrant => h.notWaiting hgrant.1
  refine ⟨hpending, by rw [hfront, h.idle], by rw [hfront, h.free], ?_⟩
  exact (State.wantsLease_congr (by rw [hfront]) hiso.cfg fun hx0 =>
    (hiso.bridge fun hc => hx (hx0.trans hc.symm)).1).trans h.wants

/-! ## The lease is held -/

/-- The state after `c` has taken its frame and joined PENDING (R125). -/
def State.joined (s : State) (c : Chan) : State :=
  { s with pending := s.pending ++ [c] }.setFront c { s.front c with busy := true, phase := .waiting }

/-- A channel that asks for a held lease joins PENDING, and no event is held back of it. -/
theorem State.Requests.waits {s : State} {c o : Chan} (h : s.Requests c) (howner : s.owner = some o) (ho : o ≠ c)
    (hold : Nat) : pacedStep hold c s = .next (s.joined c) := by
  obtain ⟨f, k, -, hstep, hask⟩ := h.channelStep
  have hwait := underLease_held k (s := s.takeFrame c) ((State.setFront_owner ..).trans howner) ho
    (by rw [State.takeFrame, State.setFront_pending]; exact h.notWaiting)
  have hjoined : State.setPhase { s.takeFrame c with pending := (s.takeFrame c).pending ++ [c] } c .waiting =
      s.joined c := by cases c <;> rfl
  rw [pacedStep, hstep, hask, hwait, hjoined, andThen_next_left, State.holdBack_other (.inl ?_)]
  rw [State.joined, State.setFront_front_self]
  rfl

/-- The requests that find the lease held enter PENDING in the order of their steps, and nothing is granted or logged
(R125, R127). -/
theorem stepsInOrder_wait {o : Chan} (hold : Nat) (order : List Chan) (s : State) (howner : s.owner = some o)
    (ho : o ∉ order) (hnodup : order.Nodup) (hreq : ∀ c ∈ order, s.Requests c) :
    ∃ t, stepsInOrder hold order s = .next t ∧ t.pending = s.pending ++ order ∧ t.owner = s.owner ∧
      t.lastGrant = s.lastGrant ∧ t.log = s.log ∧ (∀ x ∈ order, (t.front x).phase = .waiting) ∧
      ∀ x, x ∉ order → t.front x = s.front x := by
  induction order generalizing s with
  | nil => exact ⟨s, rfl, (List.append_nil _).symm, rfl, rfl, rfl, nofun, fun _ _ => rfl⟩
  | cons c order ih =>
    obtain ⟨hc, hrest⟩ := List.forall_mem_cons.mp hreq
    obtain ⟨hnot, hnodup⟩ := List.nodup_cons.mp hnodup
    have hstep := hc.waits howner (fun hoc => ho (hoc ▸ List.mem_cons_self)) hold
    have hpending : (s.joined c).pending = s.pending ++ [c] := State.setFront_pending ..
    have howner' : (s.joined c).owner = s.owner := State.setFront_owner ..
    have hothers (x : Chan) (hx : x ≠ c) : (s.joined c).front x = s.front x := by
      rw [State.joined, State.setFront_front_ne _ _ hx]; cases x <;> rfl
    have hreq' (x : Chan) (hx : x ∈ order) : (s.joined c).Requests x := by
      have hxc : x ≠ c := fun hxc => hnot (hxc ▸ hx)
      refine (hrest x hx).isolated (pacedStep_outcome hstep).isolated hxc ?_
      simpa [hpending, hxc] using (hrest x hx).notWaiting
    obtain ⟨t, ht, htpending, htowner, hlast, hlog, hwaiting, hkept⟩ := ih (s.joined c) (howner'.trans howner)
      (fun hmem => ho (List.mem_cons_of_mem _ hmem)) hnodup hreq'
    refine ⟨t, (stepsInOrder_cons hstep).trans ht, by rw [htpending, hpending, List.append_assoc]; rfl,
      htowner.trans howner', hlast.trans (State.setFront_lastGrant ..), hlog.trans (State.setFront_log ..), ?_,
      fun x hx => ?_⟩
    · refine List.forall_mem_cons.mpr ⟨?_, hwaiting⟩
      rw [hkept c hnot, State.joined, State.setFront_front_self]
    · obtain ⟨hxc, hx⟩ := not_or.mp (List.mem_cons.not.mp hx)
      rw [hkept x hx, hothers x hxc]

/-! ## The lease is free -/

/-- A command that takes a free lease is granted it, and then records events of its own lease (R47, R126). -/
theorem CommandOutcome.of_free {c : Chan} {s t : State} (h : CommandOutcome c s true t) (hfree : s.Free) :
    t.owner = some c ∧ t.pending = [] ∧ t.lastGrant = c ∧ ∃ ks : List EventKind, (∀ k ∈ ks, k.within c = true) ∧
      Records s t (⟨some c, .grant c⟩ :: ks.map fun k => ⟨some c, k⟩) := by
  obtain ⟨hnone, hpending⟩ := hfree
  have hgrant {u : State} (hstart : BusStart c s true u) : u = s.grant c := by
    cases hstart with
    | grants => rfl
    | inTransaction _ _ howner => simp [hnone] at howner
    | granted _ _ howner => simp [hnone] at howner
  have hrec := s.grant_records c
  have howner := State.grant_owner s c
  have hwaiters : (s.grant c).pending = [] := by rw [State.grant_pending, hpending]; rfl
  have hlast : (s.grant c).lastGrant = c := by rw [State.grant_eq, State.setPhase_lastGrant]
  cases h with
  | answers _ hlease => exact nomatch hlease
  | waits _ _ _ hwaits => exact absurd (State.acquire_grant ⟨hnone, hpending⟩ ▸ howner) hwaits
  | @runs u v resp release hstart hrun =>
    obtain rfl := hgrant hstart
    obtain ⟨ks, hks, krec⟩ := hrun.action.records
    rw [howner] at krec
    refine ⟨?_, ?_, ?_, ks, hks,
      by simpa using (hrec.trans krec).trans (State.respond_records v c resp release)⟩
    · rw [State.respond_owner, hrun.action.owner, howner]
    · rw [State.respond_pending, hrun.action.frame]; exact hwaiters
    · rw [State.respond_lastGrant, hrun.action.frame]; exact hlast
  | @boots u hc hstart =>
    subst hc
    obtain rfl := hgrant hstart
    refine ⟨?_, ?_, ?_, [.boot], by simp [EventKind.within], hrec.trans (bootTrigger_records howner)⟩
    all_goals rw [bootTrigger_eq howner]
    · exact howner
    · exact hwaiters
    · exact hlast

/-- The grant of a command is never held back: LOG gains it, and then the first of the command's own events (log
entry 7). -/
theorem State.holdBack_afterGrant {c : Chan} {s t : State} {ks : List EventKind} (hold : Nat)
    (h : Records s t (⟨some c, .grant c⟩ :: ks.map fun k => ⟨some c, k⟩)) :
    ∃ n, (s.holdBack c hold t).log = gains (some c) (ks.take n) (⟨some c, .grant c⟩ :: s.log) := by
  by_cases hahead : s.ahead = []
  · obtain ⟨now, later, hheld⟩ := State.holdBack_held c hold h hahead
    obtain ⟨n, hlater⟩ := HeldBack.later_eq (es := [⟨some c, .grant c⟩]) hheld (.inr ⟨c, rfl⟩)
    have hnow : now = ⟨some c, .grant c⟩ :: (ks.take n).map fun k => ⟨some c, k⟩ := by
      have hsplit := hheld.split
      have hks : ks.map (fun k => (⟨some c, k⟩ : Event)) =
          (ks.take n).map (fun k => ⟨some c, k⟩) ++ (ks.drop n).map fun k => ⟨some c, k⟩ := by
        rw [← List.map_append, List.take_append_drop]
      rw [hlater, hks, ← List.cons_append] at hsplit
      exact (List.append_cancel_right hsplit).symm
    exact ⟨n, by rw [hheld.log, hnow]; simp [gains]⟩
  · refine ⟨ks.length, ?_⟩
    rw [State.holdBack_other (.inr (.inr (by rw [h.2.1]; exact hahead))), h.1, List.take_length]
    simp [gains]

/-- A channel that asks for a free lease is granted it in its step, and its other new events in LOG are of its own
lease (R126, R134). -/
theorem State.Requests.granted {s : State} {c : Chan} (h : s.Requests c) (hfree : s.Free) (hold : Nat) :
    ∃ t, pacedStep hold c s = .next t ∧ t.owner = some c ∧ t.pending = [] ∧ t.lastGrant = c ∧
      ∃ ks : List EventKind, (∀ k ∈ ks, k.within c = true) ∧
        t.log = gains (some c) ks (⟨some c, .grant c⟩ :: s.log) := by
  obtain ⟨f, k, hrx, hstep, hask⟩ := h.channelStep
  have hfree' : (s.takeFrame c).Free :=
    ⟨(State.setFront_owner ..).trans hfree.1, (State.setFront_pending ..).trans hfree.2⟩
  have hphase : ((s.takeFrame c).front c).phase ≠ .granted := by
    rw [State.takeFrame, State.setFront_front_self]; simp [h.idle]
  rw [State.CanLease.underLease (.inr ⟨hphase, hfree'⟩)] at hask
  have hout := runFrame_outcome hrx hask
  rw [State.takeFrame_wantsLease, h.wants] at hout
  generalize k ((s.takeFrame c).leased c) = v at hask hout
  obtain ⟨howner, hpending, hlast, ks, hks, hrec⟩ := hout.of_free hfree'
  obtain ⟨n, hlog⟩ := State.holdBack_afterGrant hold hrec
  have hbus := (s.takeFrame c).holdBack_bus v c hold
  have hbegin : Begins c s (s.takeFrame c) := ⟨State.rx_of_wantsLease h.wants, .inl ⟨h.idle, h.free, rfl⟩⟩
  refine ⟨(s.takeFrame c).holdBack c hold v, ?_, hbus.owner.trans howner, hbus.pending.trans hpending, ?_, ks.take n,
    fun k hk => hks k (List.mem_of_mem_take hk), ?_⟩
  · rw [pacedStep, hstep, hask, andThen_next_left, State.holdBack_begins hbegin]
  · rw [hbus]; exact hlast
  · rw [hlog, State.takeFrame, State.setFront_log]

/-- Settles O19: the requests that find the lease held join PENDING in the order of their steps; of a free lease the
first request is granted, and the others find it held. -/
theorem sameCycleRoundRobin : Obligations.SameCycleRoundRobin := by
  unfold Obligations.SameCycleRoundRobin
  intro order
  have horder (c : Chan) : order c = roundRobin c := by cases c <;> rfl
  have hnodup (s : State) (cs : List Chan) : ((roundRobin s.lastGrant).filter (· ∈ cs)).Nodup :=
    (roundRobin_nodup s.lastGrant).filter _
  have hmem {s : State} {cs : List Chan} {x : Chan} (hx : x ∈ (roundRobin s.lastGrant).filter (· ∈ cs)) : x ∈ cs := by
    simpa using (List.mem_filter.mp hx).2
  simp only [horder]
  refine ⟨fun s cs hold o howner ho hreq => ?_, fun s cs hold c xs howner hpending hreq hfirst => ?_⟩
  · obtain ⟨t, ht, hpending, htowner, hlast, hlog, -, -⟩ := stepsInOrder_wait hold _ s howner (fun h => ho (hmem h))
      (hnodup s cs) fun x hx => by
        obtain ⟨hnot, hidle, hfree, hwants⟩ := hreq x (hmem hx)
        exact ⟨hnot, hidle, hfree, hwants⟩
    exact ⟨t, ht, hpending, htowner, hlast, hlog⟩
  · have hasks (x : Chan) (hx : x ∈ c :: xs) : s.Requests x := by
      obtain ⟨hidle, hfree, hwants⟩ := hreq x (hmem (hfirst ▸ hx))
      exact ⟨by simp [hpending], hidle, hfree, hwants⟩
    obtain ⟨hc, hxs⟩ := List.nodup_cons.mp (hfirst ▸ hnodup s cs)
    obtain ⟨u, hu, huowner, hupending, hulast, ks, hks, hulog⟩ :=
      (hasks c List.mem_cons_self).granted ⟨howner, hpending⟩ hold
    have hothers (x : Chan) (hx : x ∈ xs) : u.Requests x :=
      (hasks x (List.mem_cons_of_mem _ hx)).isolated (pacedStep_outcome hu).isolated (fun hxc => hc (hxc ▸ hx))
        (by simp [hupending])
    obtain ⟨t, ht, htpending, htowner, hlast, hlog, hwaiting, -⟩ := stepsInOrder_wait hold xs u huowner hc hxs hothers
    refine ⟨t, (ks.map fun k => (⟨some c, k⟩ : Event)).reverse, ?_, htowner.trans huowner,
      by rw [htpending, hupending]; rfl, hlast.trans hulast, hwaiting, hlog.trans hulog, fun e he => ?_⟩
    · rw [runCycle_eq, hfirst, stepsInOrder_cons hu, ht]
    · obtain ⟨k, hk, rfl⟩ := List.mem_map.mp (List.mem_reverse.mp he)
      have hwithin := hks k hk
      exact ⟨rfl, fun x => ⟨fun hg => by simp [show k = _ from hg, EventKind.within] at hwithin,
        fun hr => by simp [show k = _ from hr, EventKind.within] at hwithin⟩⟩

end Sys2Proof.Machine
end

section
/-! SUPPORT. Attach, arrival and detach (R120, R131, R132): what a detach can do, and what the channel's transport sees of
it. -/

namespace Sys2Proof.Machine

/-! ## What a detach can do -/

/-- What a detach can make of the command of `c` (R131): the command gives up its wait; it has run and ends; it was
granted the lease, runs and ends; or there is none (log entry 16). -/
inductive DetachOutcome (c : Chan) (s : State) : State → Prop
  | abandons (hwaits : c ∈ s.pending) : DetachOutcome c s ((s.leavePending c).freeSlot c)
  | ends {t : State} (resp : Option Frame) (release : Bool) (hphase : (s.front c).phase = .ran resp release)
    (hend : s.endCommand c = .next t) : DetachOutcome c s t
  | runs {u t : State} (hphase : (s.front c).phase = .granted) (hout : CommandOutcome c s (s.wantsLease c) u)
    (hend : u.endCommand c = .next t) : DetachOutcome c s t
  | rests (hran : (s.front c).phase.hasRun = false) (hrx : (s.front c).phase = .granted → (s.front c).rx = none)
    (hwaits : c ∉ s.pending) : DetachOutcome c s s

theorem detachCommand_outcome {c : Chan} {s t : State} (h : detachCommand c s = .next t) : DetachOutcome c s t := by
  unfold detachCommand at h
  split at h
  · rename_i hwaits
    exact Host.Outcome.next.inj h ▸ .abandons hwaits
  · rename_i hwaits
    split at h
    · rename_i f hphase hrx
      obtain ⟨u, hu, hend⟩ := andThen_next.mp h
      exact .runs hphase (runFrame_outcome hrx hu) hend
    · rename_i resp release hphase
      exact .ends resp release hphase h
    all_goals
      obtain rfl := Host.Outcome.next.inj h
      refine .rests ?_ ?_ hwaits <;> simp_all [Phase.hasRun]

/-- The cleanup of R131: the lease of an open transaction is released after its close, then the channel's slot is emptied
and its registers are reset. -/
theorem State.detachCleanup_cases {c : Chan} {s t : State} (h : s.detachCleanup c = .next t) :
    ∃ w, t = (w.freeSlot c).resetInterpreter c ∧
      ((¬(c = .ch0 ∧ s.brTxn = true) ∧ w = s) ∨
        (c = .ch0 ∧ s.brTxn = true ∧ s.owner = some .ch0 ∧
          State.release { s.csWrite true with brTxn := false } .ch0 = .next w)) := by
  obtain ⟨w, hw, ht⟩ := andThen_next.mp h
  refine ⟨w, (Host.Outcome.next.inj ht).symm, ?_⟩
  split at hw
  · rename_i hopen
    obtain ⟨v, hv, hrel⟩ := andThen_next.mp hw
    obtain ⟨howner, rfl⟩ := onBus_next.mp hv
    exact .inr ⟨hopen.1, hopen.2, howner, hrel⟩
  · rename_i hopen
    exact .inl ⟨hopen, (Host.Outcome.next.inj hw).symm⟩

/-- The state in which the transport of `c` is gone and its command has still to end (R131). -/
def State.unplug (s : State) (c : Chan) : State := s.setFront c { s.front c with link := .detached }

/-- A detach of an attached channel ends the command and then cleans up (R131). -/
theorem detachStep_attached {c : Chan} {s : State} (hlink : (s.front c).link = .attached) :
    detachStep c s = andThen (detachCommand c (s.unplug c)) (·.detachCleanup c) := if_pos hlink

/-! ## What the transport sees -/

/-- From `f` to `g` the link stays as it is, and a detached transport is handed no response (R121). -/
def Front.SameLink (f g : Front) : Prop := g.link = f.link ∧ (f.link = .detached → g.sent = f.sent)

theorem Front.SameLink.refl (f : Front) : f.SameLink f := ⟨rfl, fun _ => rfl⟩

theorem Front.SameLink.of_eq {f g : Front} (h : g = f) : f.SameLink g := h ▸ .refl f

theorem Front.SameLink.trans {f g k : Front} (h : f.SameLink g) (j : g.SameLink k) : f.SameLink k :=
  ⟨j.1.trans h.1, fun hf => (j.2 (h.1.trans hf)).trans (h.2 hf)⟩

theorem Front.sameLink_ended (f : Front) (resp : Option Frame) : f.SameLink (f.ended resp) :=
  ⟨rfl, fun hf => by simp [Front.ended, hf]⟩

theorem State.arbitrate_sameLink (s : State) (x : Chan) : (s.front x).SameLink (s.arbitrate.front x) := by
  obtain ⟨y, ys, -, -, hgrant⟩ | ⟨-, hsame⟩ := s.arbitrate_cases
  · rw [hgrant]
    by_cases hxy : x = y
    · subst hxy; rw [State.grant_front_self]; exact ⟨rfl, fun _ => rfl⟩
    · exact .of_eq (State.grant_front_ne s hxy)
  · rw [hsame]
    exact .refl _

theorem BusStart.sameLink {c : Chan} {s t : State} {lease : Bool} (h : BusStart c s lease t) :
    (s.front c).SameLink (t.front c) := by
  cases h with
  | inTransaction => exact .refl _
  | granted => exact .refl _
  | grants => rw [State.grant_front_self]; exact ⟨rfl, fun _ => rfl⟩

theorem CommandOutcome.sameLink {c : Chan} {s t : State} {lease : Bool} (h : CommandOutcome c s lease t) :
    (s.front c).SameLink (t.front c) := by
  have hrespond (u : State) (resp : Option Frame) (release : Bool) :
      (u.front c).SameLink ((u.respond c resp release).front c) := by
    rw [State.respond_front_self]; exact ⟨rfl, fun _ => rfl⟩
  cases h with
  | answers resp _ hoff =>
    exact (Front.SameLink.of_eq (by rw [hoff.frame]; cases c <;> rfl)).trans (hrespond _ _ _)
  | waits =>
    refine Front.SameLink.trans ?_ (State.arbitrate_sameLink _ c)
    rw [State.setPhase_front_self]
    cases c <;> exact ⟨rfl, fun _ => rfl⟩
  | runs resp release hstart hrun =>
    exact hstart.sameLink.trans ((Front.SameLink.of_eq (hrun.action.front c)).trans (hrespond _ _ _))
  | @boots u hc hstart =>
    subst hc
    have hboot : (bootTrigger u).front .ch0 = (u.front .ch0).ended (some (bridgeReply [])) := by
      rw [bootTrigger, State.deliver_freeSlot]; rfl
    rw [hboot]
    exact hstart.sameLink.trans (Front.sameLink_ended _ _)

/-- The end of a command changes nothing unless a command has run (R121). -/
theorem State.endCommand_cases {c : Chan} {s t : State} (h : s.endCommand c = .next t) :
    t = s ∨ ∃ resp release, (s.front c).phase = .ran resp release := by
  unfold State.endCommand at h
  split at h
  · rename_i resp release hphase
    exact .inr ⟨resp, release, hphase⟩
  · exact .inl (Host.Outcome.next.inj h).symm

theorem State.endCommand_sameLink {c : Chan} {s t : State} (h : s.endCommand c = .next t) :
    (s.front c).SameLink (t.front c) := by
  obtain rfl | ⟨resp, release, hphase⟩ := State.endCommand_cases h
  · exact .refl _
  · obtain ⟨v, rfl, hv⟩ := State.endCommand_next hphase h
    rw [State.setFront_front_self]
    refine Front.SameLink.trans ?_ (Front.sameLink_ended _ _)
    obtain ⟨-, rfl⟩ | ⟨-, -, rfl⟩ := hv
    · exact .of_eq ((s.finishBus_bus c).front c)
    · refine Front.SameLink.trans (.of_eq ?_) (State.arbitrate_sameLink _ c)
      rw [State.closeCommand_eq, ← (s.finishBus_bus c).front c]
      cases c <;> rfl

theorem DetachOutcome.sameLink {c : Chan} {s t : State} (h : DetachOutcome c s t) :
    (s.front c).SameLink (t.front c) := by
  cases h with
  | abandons =>
    rw [State.freeSlot, State.setFront_front_self]
    cases c <;> exact ⟨rfl, fun _ => rfl⟩
  | ends resp release hphase hend => exact State.endCommand_sameLink hend
  | runs hphase hout hend => exact hout.sameLink.trans (State.endCommand_sameLink hend)
  | rests => exact .refl _

theorem State.detachCleanup_sameLink {c : Chan} {s t : State} (h : s.detachCleanup c = .next t) :
    (s.front c).SameLink (t.front c) := by
  obtain ⟨w, rfl, hw⟩ := State.detachCleanup_cases h
  rw [State.resetInterpreter_front, State.freeSlot, State.setFront_front_self]
  refine Front.SameLink.trans (g := w.front c) ?_ ⟨rfl, fun _ => rfl⟩
  obtain ⟨-, rfl⟩ | ⟨-, -, -, hrel⟩ := hw
  · exact .refl _
  · obtain ⟨-, rfl⟩ := State.release_next.mp hrel
    refine Front.SameLink.trans (.of_eq ?_) (State.arbitrate_sameLink _ c)
    rw [State.csWrite_eq]
    cases c <;> rfl

/-- After its detach a channel is detached, and the transport has been handed nothing (R131). -/
theorem detachStep_sameLink {c : Chan} {s t : State} (hlink : (s.front c).link = .attached)
    (h : detachStep c s = .next t) : (t.front c).link = .detached ∧ (t.front c).sent = (s.front c).sent := by
  rw [detachStep_attached hlink] at h
  obtain ⟨v, hv, ht⟩ := andThen_next.mp h
  obtain ⟨htlink, hsent⟩ := (detachCommand_outcome hv).sameLink.trans (State.detachCleanup_sameLink ht)
  rw [State.unplug, State.setFront_front_self] at htlink hsent
  exact ⟨htlink, hsent rfl⟩

/-! ## Arrivals -/

/-- No frame arrives on a channel that is detached, holds a frame or is busy (R120). -/
theorem State.arrive_refused {s : State} {c : Chan} (f : Frame)
    (h : (s.front c).link = .detached ∨ (s.front c).rx ≠ none ∨ (s.front c).busy = true) : s.arrive c f = s := by
  refine if_neg fun ⟨hlink, hrx, hbusy⟩ => ?_
  obtain h | h | h := h
  · simp [hlink] at h
  · exact h hrx
  · simp [hbusy] at h

/-- Settles O23: attach and arrival write one front end, and after a detach the link is gone, so nothing arrives. -/
theorem attachAndArrive : Obligations.AttachAndArrive := by
  refine ⟨fun s c hboot => ?_, fun s c f hboot => ⟨fun hlink hrx hbusy => ?_, fun h => ?_⟩, fun s c f hlink => ?_⟩
  · simp [applyMove, hboot, State.attach]
  · simp [applyMove, hboot, State.arrive, hlink, hrx, hbusy]
  · simp [applyMove, hboot, State.arrive_refused f h]
  · cases hstep : detachStep c s with
    | next t =>
      simp [applyMove, hstep, State.arrive_refused f (.inl (detachStep_sameLink hlink hstep).1)]
    | fault r => simp [applyMove, hstep, andThen]
    | refused r => simp [applyMove, hstep, andThen]

end Sys2Proof.Machine
end

section
/-! SUPPORT. The state after a detach (R129, R131, R312): what each outcome of the detach writes, and the statement about
all of them. -/

namespace Sys2Proof.Machine

/-! ## Held events of a detached channel -/

/-- The Pin/Bus Controller does not look at the front ends. -/
theorem playEvents_setFront (n : Nat) (s : State) (c : Chan) (f : Front) :
    playEvents n (s.setFront c f) = (playEvents n s).setFront c f := by
  obtain ⟨hbus, hlog, hahead⟩ := playEvents_spec n s
  obtain ⟨kbus, klog, kahead⟩ := playEvents_spec n (s.setFront c f)
  have hset : SameButBus (s.setFront c f) ((playEvents n s).setFront c f) := by
    unfold SameButBus at hbus ⊢
    rw [hbus]
    cases c <;> rfl
  refine kbus.ext hset (fun p => ?_) ?_ ?_
  · rw [playEvents_outReg, State.setFront_outReg, State.setFront_outReg, playEvents_outReg, State.setFront_ahead]
  · rw [klog, State.setFront_log, State.setFront_log, State.setFront_ahead, hlog]
  · rw [kahead, State.setFront_ahead, State.setFront_ahead, hahead]

theorem State.finishBus_setFront (s : State) (c : Chan) (f : Front) :
    (s.setFront c f).finishBus c = (s.finishBus c).setFront c f := by
  unfold State.finishBus State.settled
  rw [State.setFront_owner, State.setFront_ahead, playEvents_setFront]
  split <;> rfl

theorem State.finishBus_of_nil {s : State} (c : Chan) (h : s.ahead = []) : s.finishBus c = s := by
  unfold State.finishBus
  rw [State.settled_of_nil h, ite_self]

/-- A channel whose command has not run has no bus event to finish. -/
theorem State.Core.finishBus_notRun {s : State} {c : Chan} (h : s.Core) (hran : (s.front c).phase.hasRun = false) :
    s.finishBus c = s := by
  by_cases howner : s.owner = some c
  · exact State.finishBus_of_nil c (h.logs.noneAhead howner hran)
  · exact State.finishBus_other howner

/-! ## The registers that a detach writes -/

/-- The bridge has an open transaction, which a detach of `c` closes (R131). -/
def State.closesTxn (s : State) (c : Chan) : Bool := decide (c = .ch0) && s.brTxn

/-- The events that close an open transaction and release its lease, or release a lease of one frame (R131, R154). -/
def State.releaseEvents (s : State) (c : Chan) (closing : Bool) : List EventKind :=
  (if closing then (if s.csN then [] else [.wait .csh s.cfg.tCsh]) ++ [.pin .csN true] else []) ++ [.release c]

/-- `t` is `u` but for the front ends, the interpreter registers, the end of the transaction where one is closed, and what
the owner's release does to the arbiter and LOG where the lease is released (R129, R131). -/
def DetachFrame (c : Chan) (closing released : Bool) (u t : State) : Prop :=
  t = { u with
    front0 := t.front0, front1 := t.front1, front2 := t.front2, dap1 := t.dap1, dap2 := t.dap2
    brDiv := t.brDiv
    brTxn := if closing then false else u.brTxn
    csN := if closing then true else u.csN
    owner := if released then u.pending.head? else u.owner
    pending := if released then u.pending.tail else u.pending
    lastGrant := if released then u.pending.head?.getD u.lastGrant else u.lastGrant
    log := if released then
        (u.pending.head?.toList.map fun x => ⟨some x, .grant x⟩) ++ gains (some c) (u.releaseEvents c closing) u.log
      else u.log }

namespace DetachFrame

variable {c : Chan} {closing released : Bool} {u v t : State}

theorem refl (c : Chan) (u : State) : DetachFrame c false false u u := rfl

theorem of_setFront {x : Chan} {f : Front} (h : DetachFrame c closing released (u.setFront x f) t) :
    DetachFrame c closing released u t := by
  cases x <;> exact h

theorem setFront (h : DetachFrame c closing released u v) (x : Chan) (f : Front) :
    DetachFrame c closing released u (v.setFront x f) := by
  unfold DetachFrame at h ⊢
  rw [h]
  cases x <;> rfl

theorem resetInterpreter (h : DetachFrame c closing released u v) (x : Chan) :
    DetachFrame c closing released u (v.resetInterpreter x) := by
  unfold DetachFrame at h ⊢
  rw [h]
  cases x <;> rfl

/-- The end of a command that releases its lease (R129, R220). -/
theorem endCommand {resp : Option Frame} (h : u.Core) (hphase : (u.front c).phase = .ran resp true)
    (hend : u.endCommand c = .next t) : DetachFrame c false true (u.finishBus c) t := by
  rw [State.endCommand_releasing hphase] at hend
  obtain ⟨r, hr, ht⟩ := andThen_next.mp hend
  obtain rfl := Host.Outcome.next.inj ht
  have hbus := u.finishBus_bus c
  have howner : (u.finishBus c).owner = some c := hbus.owner.trans (h.lease.holder c (by rw [hphase]; rfl))
  have hnodup : (u.finishBus c).pending.Nodup := hbus.pending ▸ h.lease.nodup
  generalize u.finishBus c = w at hr howner hnodup
  have hclose := w.closeCommand_eq c
  generalize w.closeCommand c = w' at hr hclose
  obtain ⟨r', hr', heq, -⟩ := State.release_passes (s := w') (c := c) (by rw [hclose]; exact howner)
    (by rw [hclose]; exact hnodup)
  obtain rfl := Host.Outcome.next.inj (hr'.symm.trans hr)
  refine DetachFrame.setFront ?_ c _
  unfold DetachFrame
  rw [heq, hclose]
  rfl

/-- Closing the transaction and releasing its lease (R131, R154). -/
theorem closeTxn (howner : u.owner = some .ch0) (hnodup : u.pending.Nodup)
    (hrel : State.release { u.csWrite true with brTxn := false } .ch0 = .next t) : DetachFrame .ch0 true true u t := by
  have hlog : (u.csWrite true).log =
      gains (some .ch0) ((if u.csN then [] else [.wait .csh u.cfg.tCsh]) ++ [.pin .csN true]) u.log := by
    cases hcs : u.csN <;> simp [State.csWrite, hcs, State.setPin_csN, State.wait, State.logEv, gains, howner]
  have heq := u.csWrite_eq true
  rw [hlog] at heq
  rw [heq] at hrel
  obtain ⟨r, hr, hreq, -⟩ := State.release_passes
    (s := { u.csWrite true with brTxn := false }) (c := .ch0) (by rw [heq]; exact howner) (by rw [heq]; exact hnodup)
  rw [heq] at hr hreq
  obtain rfl := Host.Outcome.next.inj (hr.symm.trans hrel)
  unfold DetachFrame
  rw [hreq]
  simp only [State.releaseEvents, gains_append, if_true]
  rfl

/-- The cleanup of R131 closes the transaction, if one is open, and resets the channel's registers. -/
theorem detachCleanup (h : u.Core) (ht : u.detachCleanup c = .next t) :
    DetachFrame c (u.closesTxn c) (u.closesTxn c) u t := by
  obtain ⟨w, rfl, ⟨hclosed, rfl⟩ | ⟨rfl, htxn, howner, hrel⟩⟩ := State.detachCleanup_cases ht
  · have hno : w.closesTxn c = false := by simpa [State.closesTxn] using hclosed
    rw [hno]
    exact ((refl c w).setFront c _).resetInterpreter c
  · have hyes : u.closesTxn .ch0 = true := by simp [State.closesTxn, htxn]
    rw [hyes]
    exact ((closeTxn howner h.lease.nodup hrel).setFront .ch0 _).resetInterpreter .ch0

/-- A detach leaves BOOT_REQ, the draws and every pin but CS_N as they were. -/
theorem pins (h : DetachFrame c closing released u t) :
    t.resetN = u.resetN ∧ t.powerEn = u.powerEn ∧ t.pinMode = u.pinMode ∧ t.sck = u.sck ∧ t.sdo = u.sdo ∧
      t.swdioOe = u.swdioOe ∧ t.activeDiv = u.activeDiv ∧ t.bootReq = u.bootReq ∧ t.draws = u.draws := by
  rw [h]
  exact ⟨rfl, rfl, rfl, rfl, rfl, rfl, rfl, rfl, rfl⟩

theorem ahead (h : DetachFrame c closing released u t) : t.ahead = u.ahead := by rw [h]

/-- What a detach does to the arbiter and LOG. -/
theorem arbiter (h : DetachFrame c closing released u t) :
    t.owner = (if released then u.pending.head? else u.owner) ∧
      t.pending = (if released then u.pending.tail else u.pending) ∧
      t.lastGrant = (if released then u.pending.head?.getD u.lastGrant else u.lastGrant) ∧
      t.log = if released then
          (u.pending.head?.toList.map fun x => ⟨some x, .grant x⟩) ++ gains (some c) (u.releaseEvents c closing) u.log
        else u.log := by
  rw [h]
  exact ⟨rfl, rfl, rfl, rfl⟩

theorem csN (h : DetachFrame c closing released u t) : t.csN = if closing then true else u.csN := by rw [h]

theorem brTxn (h : DetachFrame c closing released u t) : t.brTxn = if closing then false else u.brTxn := by rw [h]

end DetachFrame

theorem State.arbitrate_ahead (s : State) : s.arbitrate.ahead = s.ahead := by
  obtain ⟨x, xs, -, -, hgrant⟩ | ⟨-, hsame⟩ := s.arbitrate_cases
  · rw [hgrant, State.grant_eq, State.setPhase_ahead]
  · rw [hsame]

/-! ## The three kinds of detach -/

theorem State.Core.unplug {s : State} (h : s.Core) (c : Chan) : (s.unplug c).Core := h.setFront rfl fun _ => rfl

theorem State.unplug_phase (s : State) (c : Chan) : ((s.unplug c).front c).phase = (s.front c).phase := by
  rw [State.unplug, State.setFront_front_self]

/-- A channel that holds a lease for its frame leaves no open transaction to close (R130). -/
theorem State.Core.closesTxn_holder {s : State} {c : Chan} (h : s.Core)
    (hholds : (s.front c).phase.holdsLease = true) : s.closesTxn c = false := by
  by_contra hopen
  obtain ⟨rfl, htxn⟩ : c = .ch0 ∧ s.brTxn = true := by simpa [State.closesTxn] using hopen
  simp [h.lease.txnFrame htxn] at hholds

/-- A waiting command leaves no open transaction to close: it takes a lease of its own (R130). -/
theorem State.Core.closesTxn_waiting {s : State} {c : Chan} (h : s.Core) (hphase : (s.front c).phase = .waiting) :
    s.closesTxn c = false := by
  have hwants := h.waiters c (.inl hphase)
  by_contra hopen
  obtain ⟨rfl, htxn⟩ : c = .ch0 ∧ s.brTxn = true := by simpa [State.closesTxn] using hopen
  simp [State.wantsLease_inTxn htxn] at hwants

/-- A waiting command is abandoned: its channel leaves PENDING, and nothing is logged (R131). -/
theorem detach_waiting {s v t : State} {c : Chan} (h : s.Core) (hphase : (s.front c).phase = .waiting)
    (hv : detachCommand c (s.unplug c) = .next v) (ht : v.detachCleanup c = .next t) :
    DetachFrame c false false { s with pending := s.pending.filter (· ≠ c) } t := by
  have hwaits : c ∈ (s.unplug c).pending := by
    rw [State.unplug, State.setFront_pending]; exact (h.lease.waiting c).mpr hphase
  have habandon := (h.unplug c).abandon hwaits
  rw [detachCommand, if_pos hwaits] at hv
  obtain rfl := Host.Outcome.next.inj hv
  have hclosed : (((s.unplug c).leavePending c).freeSlot c).closesTxn c = false := by
    rw [← h.closesTxn_waiting hphase]; cases c <;> rfl
  have hframe := DetachFrame.detachCleanup habandon ht
  rw [hclosed] at hframe
  have hv : ((s.unplug c).leavePending c).freeSlot c =
      State.setFront { s with pending := s.pending.filter (· ≠ c) } c
        { s.front c with link := .detached, rx := none, busy := false, phase := .idle } := by cases c <;> rfl
  rw [hv] at hframe
  exact hframe.of_setFront

/-- A detach while the channel is idle, or its command has run: what lies ahead of the command is executed, and the lease
is released if it was taken for the command or the open transaction (R129, R131, log entry 7). -/
theorem detach_rested {s v t : State} {c : Chan} (h : s.Core) (hgranted : (s.front c).phase ≠ .granted)
    (hwaiting : (s.front c).phase ≠ .waiting) (hv : detachCommand c (s.unplug c) = .next v)
    (ht : v.detachCleanup c = .next t) :
    DetachFrame c (s.closesTxn c) ((s.front c).phase.running || s.closesTxn c) (s.finishBus c) t := by
  have hcore := h.unplug c
  have hphase := s.unplug_phase c
  have hfinish : (s.unplug c).finishBus c = (s.finishBus c).setFront c _ := s.finishBus_setFront c _
  have hopen {w : State} (hw : w.brTxn = s.brTxn) : w.closesTxn c = s.closesTxn c := by
    rw [State.closesTxn, State.closesTxn, hw]
  have hbus := s.finishBus_bus c
  have htxn : (s.finishBus c).brTxn = s.brTxn := by rw [hbus]
  cases detachCommand_outcome hv with
  | abandons hwaits => exact absurd (hphase ▸ (hcore.lease.waiting c).mp hwaits) hwaiting
  | runs hrun => exact absurd (hphase ▸ hrun) hgranted
  | rests hran =>
    have hframe := DetachFrame.detachCleanup hcore ht
    rw [hopen (w := s.unplug c) (State.setFront_brTxn ..)] at hframe
    rw [h.finishBus_notRun (hphase ▸ hran)]
    have hrunning : (s.front c).phase.running = false := by
      rw [hphase] at hran
      cases hp : (s.front c).phase <;> simp_all [Phase.hasRun, Phase.running]
    rw [hrunning, Bool.false_or]
    exact hframe.of_setFront
  | ends resp release hran hend =>
    rw [show (s.front c).phase.running = release by rw [← hphase, hran]; rfl]
    cases release with
    | false =>
      have hvcore := hcore.endCommand hran hend
      rw [State.endCommand_keeping hran, hfinish, State.setFront_setFront] at hend
      obtain rfl := Host.Outcome.next.inj hend
      have hframe := DetachFrame.detachCleanup hvcore ht
      rw [hopen ((State.setFront_brTxn ..).trans htxn)] at hframe
      exact hframe.of_setFront
    | true =>
      have hclosed : s.closesTxn c = false := h.closesTxn_holder (by rw [← hphase, hran]; rfl)
      have hframe := DetachFrame.endCommand hcore hran hend
      rw [hfinish] at hframe
      obtain ⟨w, rfl, ⟨-, rfl⟩ | ⟨rfl, hvtxn, -⟩⟩ := State.detachCleanup_cases ht
      · rw [hclosed]
        exact (hframe.of_setFront.setFront c _).resetInterpreter c
      · have hno := hopen (w := v) (by rw [hframe.brTxn]; exact (State.setFront_brTxn ..).trans htxn)
        rw [← hno] at hclosed
        simp [State.closesTxn, hvtxn] at hclosed

/-- The end of a command with no event ahead leaves the outputs and holds nothing ahead. -/
theorem State.endCommand_noneAhead {c : Chan} {s t : State} (hahead : s.ahead = []) (h : s.endCommand c = .next t) :
    t.ahead = [] ∧ ∀ p, t.outReg p = s.outReg p := by
  obtain rfl | ⟨resp, release, hphase⟩ := State.endCommand_cases h
  · exact ⟨hahead, fun _ => rfl⟩
  · refine ⟨?_, fun p => by rw [State.endCommand_outReg hphase h, State.finishBus_of_nil c hahead]⟩
    obtain ⟨v, rfl, hv⟩ := State.endCommand_next hphase h
    rw [State.setFront_ahead]
    rw [State.finishBus_of_nil c hahead] at hv
    obtain ⟨-, rfl⟩ | ⟨-, -, rfl⟩ := hv
    · exact hahead
    · rw [State.arbitrate_ahead, State.closeCommand_eq]
      exact hahead

/-- A detach of a channel that was granted the lease holds no event ahead, and one of a DAP channel leaves POWER_EN
(R131, R156, log entry 16). -/
theorem detach_granted {s v t : State} {c : Chan} (h : s.Core) (hphase : (s.front c).phase = .granted)
    (hv : detachCommand c (s.unplug c) = .next v) (ht : v.detachCleanup c = .next t) (hvcore : v.Core) :
    t.ahead = [] ∧ (c ≠ .ch0 → t.powerEn = s.powerEn) := by
  have hcore := h.unplug c
  have hphase' := (s.unplug_phase c).trans hphase
  have hclean := DetachFrame.detachCleanup hvcore ht
  obtain ⟨-, hpower, -⟩ := hclean.pins
  have hsahead : (s.unplug c).ahead = [] :=
    hcore.logs.noneAhead (hcore.lease.holder c (by rw [hphase']; rfl)) (by rw [hphase']; rfl)
  rw [hclean.ahead, hpower]
  cases detachCommand_outcome hv with
  | abandons hwaits => simp [(hcore.lease.waiting c).mp hwaits] at hphase'
  | ends resp release hran => simp [hran] at hphase'
  | rests hran hrx => exact absurd (hrx hphase') (State.rx_of_wantsLease (hcore.waiters c (.inr hphase')))
  | @runs u _ _ hout hend =>
    obtain ⟨es, ks, hgrant, hks, -, huahead, hout⟩ := hout.records
    obtain ⟨hnone, hsame⟩ := State.endCommand_noneAhead (huahead.trans hsahead) hend
    refine ⟨hnone, fun hc => ?_⟩
    have hpower : u.outReg .powerEn = (s.unplug c).outReg .powerEn :=
      (hout _).trans (levelOf_command (p := .powerEn) hc nofun hgrant hks (List.append_nil _).symm _)
    exact (hsame .powerEn).trans (hpower.trans (State.setFront_powerEn ..))

/-! ## The other channels and the channel's own registers -/

/-- A grant in the first of two operations of `c` stands after the second, or came to `c` itself. -/
theorem Isolated.trans {c : Chan} {s u t : State} (h : Isolated c s u) (k : Isolated c u t) (hs : s.LeaseOk)
    (hu : u.LeaseOk) (howner : t.owner = u.owner ∨ u.owner = some c) : Isolated c s t where
  fronts x hx := by
    obtain hfirst | ⟨hwaits, hgrant, hfirst⟩ := h.fronts x hx
    · obtain hsecond | ⟨hwaits, hgrant, hsecond⟩ := k.fronts x hx
      · exact .inl (hsecond.trans hfirst)
      · refine .inr ⟨(hs.waiting x).mpr ?_, hgrant, by rw [hsecond, hfirst]⟩
        rw [← hfirst]
        exact (hu.waiting x).mp hwaits
    · obtain hsecond | ⟨hwaits', -⟩ := k.fronts x hx
      · refine .inr ⟨hwaits, ?_, hsecond.trans hfirst⟩
        obtain hkept | hself := howner
        · rw [hkept, hgrant]
        · exact absurd (Option.some_inj.mp (hgrant.symm.trans hself)) hx
      · have hphase := (hu.waiting x).mp hwaits'
        simp [hfirst] at hphase
  daps d hd := (k.daps d hd).trans (h.daps d hd)
  bridge hc := by
    obtain ⟨htxn, hdiv, hboot⟩ := h.bridge hc
    obtain ⟨ktxn, kdiv, kboot⟩ := k.bridge hc
    exact ⟨ktxn.trans htxn, kdiv.trans hdiv, kboot.trans hboot⟩
  cfg := k.cfg.trans h.cfg
  sched := k.sched.trans h.sched
  leaseWaits := k.leaseWaits.trans h.leaseWaits
  port := k.port.trans h.port

/-- A command that was granted the lease still owns it when it has run. -/
theorem CommandOutcome.owner_of_granted {c : Chan} {s t : State} {lease : Bool} (hs : s.owner = some c)
    (h : CommandOutcome c s lease t) : t.owner = some c := by
  cases h with
  | answers resp _ hoff => rw [State.respond_owner, hoff.frame]; exact hs
  | waits _ howner => exact absurd hs howner
  | runs resp release hstart hrun => rw [State.respond_owner, hrun.action.owner, hstart.owner]
  | boots hc hstart => subst hc; rw [bootTrigger_eq hstart.owner]; exact hstart.owner

theorem DetachOutcome.isolated {c : Chan} {s t : State} (h : s.Core) (hout : DetachOutcome c s t) : Isolated c s t := by
  cases hout with
  | abandons =>
    have hleave : Leaves c s (s.leavePending c) :=
      ⟨fun x _ => by cases x <;> rfl, fun d _ => by cases d <;> rfl, fun _ => ⟨rfl, rfl, rfl⟩,
        fun x _ hx => (List.mem_filter.mp hx).1, rfl, rfl, rfl, rfl⟩
    exact (hleave.trans (.setFront c _ _)).isolated
  | ends resp release hphase hend => exact State.endCommand_isolated hphase hend
  | rests => exact (Leaves.refl c s).isolated
  | @runs u _ hphase hrun hend =>
    have hucore := hrun.core h (.inr hphase)
    obtain ⟨-, -, hiso⟩ := hucore.endCommand_idle (hrun.phase_of_granted h hphase) hend
    have howner := hrun.owner_of_granted (h.lease.holder c (by rw [hphase]; rfl))
    exact hrun.isolated.trans hiso h.lease hucore.lease (.inr howner)

/-- What a detach leaves of its channel's own registers: the reset values (R131). -/
theorem State.detachCleanup_own {c : Chan} {s t : State} (ht : s.detachCleanup c = .next t) :
    (c = .ch0 → t.brDiv = divReset t.cfg) ∧ ∀ d : DapCh, d.chan = c → t.dap d = DapRegs.reset t.cfg := by
  obtain ⟨w, rfl, -⟩ := State.detachCleanup_cases ht
  refine ⟨?_, fun d hd => ?_⟩
  · rintro rfl; rfl
  · subst hd; cases d <;> rfl

/-- A detach as its two parts, with the invariant between them. -/
theorem detachStep_parts {c : Chan} {s t : State} (h : s.Inv) (hlink : (s.front c).link = .attached)
    (hstep : detachStep c s = .next t) :
    ∃ v, detachCommand c (s.unplug c) = .next v ∧ v.detachCleanup c = .next t ∧ v.Core ∧ (v.front c).phase = .idle := by
  obtain ⟨hcore, hwf⟩ := s.inv_iff.mp h
  rw [detachStep_attached hlink] at hstep
  obtain ⟨v, hv, ht⟩ := andThen_next.mp hstep
  obtain ⟨hvcore, hidle, -⟩ := (hcore.unplug c).detachCommand hv fun x hx => by
    rw [State.unplug, State.setFront_front_ne _ _ hx]; exact hwf x
  exact ⟨v, hv, ht, hvcore, hidle⟩

theorem detachStep_isolated {c : Chan} {s v t : State} (h : s.Core) (hv : detachCommand c (s.unplug c) = .next v)
    (ht : v.detachCleanup c = .next t) (hvcore : v.Core) (hidle : (v.front c).phase = .idle) : Isolated c s t := by
  obtain ⟨-, hiso, -⟩ := hvcore.detachCleanup hidle ht
  have hframe := DetachFrame.detachCleanup hvcore ht
  have howner : t.owner = v.owner ∨ v.owner = some c := by
    cases hclosing : v.closesTxn c with
    | false =>
      obtain ⟨hkept, -⟩ := hframe.arbiter
      exact .inl (by simpa [hclosing] using hkept)
    | true =>
      obtain ⟨rfl, htxn⟩ : c = .ch0 ∧ v.brTxn = true := by simpa [State.closesTxn] using hclosing
      exact .inr (hvcore.lease.txnOwner htxn)
  exact (Leaves.setFront c s _).trans_isolated
    (((detachCommand_outcome hv).isolated (h.unplug c)).trans hiso (h.unplug c).lease hvcore.lease howner)

/-- The front end of the channel after its detach: detached, empty and idle (R131). -/
theorem detachStep_front {c : Chan} {s v t : State} (hlink : (s.front c).link = .attached)
    (hstep : detachStep c s = .next t) (hvcore : v.Core) (hidle : (v.front c).phase = .idle)
    (ht : v.detachCleanup c = .next t) :
    t.front c = { s.front c with link := .detached, rx := none, busy := false, phase := .idle } := by
  obtain ⟨-, -, hfront⟩ := hvcore.detachCleanup hidle ht
  obtain ⟨htlink, htsent⟩ := detachStep_sameLink hlink hstep
  rw [hfront] at htlink htsent ⊢
  rw [Front.mk.injEq]
  exact ⟨htlink, rfl, rfl, rfl, htsent⟩

/-- After a detach of the bridge no transaction is open (R131). -/
theorem State.Core.detachCleanup_txn {s t : State} (h : s.Core) (ht : s.detachCleanup .ch0 = .next t) :
    t.brTxn = false := by
  have hclosed := (DetachFrame.detachCleanup h ht).brTxn
  cases htxn : s.brTxn <;> simp [hclosed, State.closesTxn, htxn]

/-! ## CS_N and the other registers -/

/-- With no transaction open and no event ahead, CS_N is deasserted (R161). -/
theorem State.Inv.csN_of_closed {s : State} (h : s.Inv) (htxn : s.brTxn = false) (hahead : s.ahead = []) :
    s.csN = true := by
  have hcs := h.csIdle htxn
  rwa [State.settled_of_nil hahead] at hcs

/-- A channel that was granted the lease leaves no transaction open, and none of its events lies ahead (R37, R130). -/
theorem State.Core.granted_closed {s : State} {c : Chan} (h : s.Core) (hphase : (s.front c).phase = .granted) :
    s.brTxn = false ∧ s.ahead = [] := by
  have howner := h.lease.holder c (by rw [hphase]; rfl)
  refine ⟨?_, h.logs.noneAhead howner (by rw [hphase]; rfl)⟩
  by_contra hopen
  have htxn : s.brTxn = true := by simpa using hopen
  obtain rfl := Option.some_inj.mp (howner.symm.trans (h.lease.txnOwner htxn))
  have hfree := h.lease.txnFrame htxn
  simp [hphase, Phase.holdsLease] at hfree

/-- Executed bus events leave the registers that no bus event writes. -/
theorem SameButBus.registers {s t : State} (h : SameButBus s t) :
    t.pinMode = s.pinMode ∧ t.sck = s.sck ∧ t.sdo = s.sdo ∧ t.swdioOe = s.swdioOe ∧ t.activeDiv = s.activeDiv ∧
      t.bootReq = s.bootReq ∧ t.draws = s.draws ∧ t.lastGrant = s.lastGrant ∧ t.cfg = s.cfg := by
  rw [h]
  exact ⟨rfl, rfl, rfl, rfl, rfl, rfl, rfl, rfl, rfl⟩

/-- CS_N after a detach: raised where it closes a transaction, and otherwise as the events ahead leave it (R131). -/
theorem detach_csN {s v t : State} {c : Chan} (h : s.Inv) (ht : t.Inv) (hiso : Isolated c s t)
    (hv : detachCommand c (s.unplug c) = .next v) (hclean : v.detachCleanup c = .next t) (hvcore : v.Core) :
    t.csN = if s.closesTxn c then true else (s.finishBus c).csN := by
  have hcore := (s.inv_iff.mp h).1
  by_cases hgranted : (s.front c).phase = .granted
  · obtain ⟨htxn, hahead⟩ := hcore.granted_closed hgranted
    have httxn : t.brTxn = false := by
      by_cases hc : c = .ch0
      · subst hc; exact hvcore.detachCleanup_txn hclean
      · rw [(hiso.bridge hc).1, htxn]
    have htcs := ht.csN_of_closed httxn (detach_granted hcore hgranted hv hclean hvcore).1
    rw [htcs, State.finishBus_of_nil c hahead, h.csN_of_closed htxn hahead, ite_self]
  by_cases hwaiting : (s.front c).phase = .waiting
  · rw [(detach_waiting hcore hwaiting hv hclean).csN, hcore.closesTxn_waiting hwaiting,
      hcore.finishBus_notRun (by rw [hwaiting]; rfl)]
  · exact (detach_rested hcore hgranted hwaiting hv hclean).csN

/-- A detach that runs no command leaves every register of the bus but CS_N as the events ahead leave it (R131). -/
theorem detach_pins {s v t : State} {c : Chan} (h : s.Core) (hboot : s.bootReq = false)
    (hgranted : (s.front c).phase ≠ .granted) (hv : detachCommand c (s.unplug c) = .next v)
    (ht : v.detachCleanup c = .next t) :
    t.resetN = (s.finishBus c).resetN ∧ t.powerEn = (s.finishBus c).powerEn ∧ t.pinMode = s.pinMode ∧ t.sck = s.sck ∧
      t.sdo = s.sdo ∧ t.swdioOe = s.swdioOe ∧ t.activeDiv = s.activeDiv ∧ t.bootReq = false ∧ t.draws = s.draws := by
  by_cases hwaiting : (s.front c).phase = .waiting
  · obtain ⟨hreset, hpower, hmode, hsck, hsdo, hoe, hactive, htboot, hdraws⟩ := (detach_waiting h hwaiting hv ht).pins
    rw [h.finishBus_notRun (by rw [hwaiting]; rfl)]
    exact ⟨hreset, hpower, hmode, hsck, hsdo, hoe, hactive, htboot.trans hboot, hdraws⟩
  · obtain ⟨hreset, hpower, hmode, hsck, hsdo, hoe, hactive, htboot, hdraws⟩ :=
      (detach_rested h hgranted hwaiting hv ht).pins
    obtain ⟨kmode, ksck, ksdo, koe, kactive, kboot, kdraws, -, -⟩ := (s.finishBus_bus c).registers
    exact ⟨hreset, hpower, hmode.trans kmode, hsck.trans ksck, hsdo.trans ksdo, hoe.trans koe, hactive.trans kactive,
      htboot.trans (kboot.trans hboot), hdraws.trans kdraws⟩

/-- Settles O22: what a detach leaves of its own channel and of the others holds for each kind of detach; what it does to
the arbiter, the pins and LOG is said by the kinds one by one. -/
theorem detachReleases : Obligations.DetachReleases := by
  intro s c h hboot hlink u inTxn released
  obtain ⟨t, hstep⟩ := detachStep_answers (c := c) h hboot
  have hcore := (s.inv_iff.mp h).1
  have hinv := detachStep_inv h hstep
  obtain ⟨v, hv, ht, hvcore, hidle⟩ := detachStep_parts h hlink hstep
  have hiso := detachStep_isolated hcore hv ht hvcore hidle
  have hfront := detachStep_front hlink hstep hvcore hidle ht
  have htphase : (t.front c).phase = .idle := by rw [hfront]
  obtain ⟨hdiv, hregs⟩ := State.detachCleanup_own ht
  have htxn (hc : c = .ch0) : t.brTxn = false := by subst hc; exact hvcore.detachCleanup_txn ht
  have hpins (hgranted : (s.front c).phase ≠ .granted) := detach_pins hcore hboot hgranted hv ht
  refine ⟨t, by simp [applyMove, hboot, hstep], fun htboot => ⟨hfront, fun howner => ?_, ?_,
    fun hc => ⟨htxn hc, by rw [hdiv hc, hiso.cfg]⟩, fun d hd => by rw [hregs d hd, hiso.cfg]⟩, hiso.fronts, hiso.daps,
    fun hc => ?_, detach_csN h hinv hiso hv ht hvcore, fun hwaiting => ?_, hpins, fun hgranted hwaiting => ?_, hiso.cfg,
    hiso.sched⟩
  · obtain hb | hholds | ⟨hc, hopen⟩ := hinv.ownerWhy c howner
    · simp [htboot] at hb
    · simp [htphase, Phase.holdsLease] at hholds
    · simp [htxn hc] at hopen
  · rw [hinv.waitingIff, htphase]; nofun
  · obtain ⟨hctxn, hcdiv, hcboot⟩ := hiso.bridge hc
    refine ⟨hctxn, hcdiv, ?_, hcboot.trans hboot⟩
    by_cases hgranted : (s.front c).phase = .granted
    · rw [show u = s from hcore.finishBus_notRun (by rw [hgranted]; rfl)]
      exact (detach_granted hcore hgranted hv ht hvcore).2 hc
    · obtain ⟨-, hpower, -⟩ := hpins hgranted
      exact hpower
  · have hframe := detach_waiting hcore hwaiting hv ht
    obtain ⟨howner, hpending, hlast, hlog⟩ := hframe.arbiter
    exact ⟨hlog, howner, hpending, hlast, hframe.ahead⟩
  · have hframe : DetachFrame c inTxn released u t := detach_rested hcore hgranted hwaiting hv ht
    have hbus : SameButBus s u := s.finishBus_bus c
    obtain ⟨-, -, -, -, -, -, -, hulast, hucfg⟩ := hbus.registers
    obtain ⟨howner, hpending, hlast, hlog⟩ := hframe.arbiter
    simp only [hbus.pending, hbus.owner, hulast, State.releaseEvents, hucfg] at howner hpending hlast hlog
    exact ⟨howner, hpending, hlast, hframe.ahead, hlog⟩

end Sys2Proof.Machine
end

section
/-! SUPPORT. The clock of the bridge: `RateSel` finds the least divider of its rising list (R150), and SET_CLOCK selects
by it (R166). -/

namespace Sys2Proof.Machine

/-! ## RateSel -/

theorem mem_dividers (d : Divider) : d ∈ dividers := by cases d <;> decide

theorem dividers_rising : dividers.Pairwise fun d e => dividerValue d ≤ dividerValue e := by decide

/-- What is found first in a list sorted by `r` stands before everything else that fits. -/
theorem rel_of_find? {α : Type} {r : α → α → Prop} {p : α → Bool} {l : List α} {a b : α} (hrefl : ∀ x, r x x)
    (hsorted : l.Pairwise r) (hfind : l.find? p = some a) (hb : b ∈ l) (hpb : p b = true) : r a b := by
  obtain ⟨-, before, after, rfl, hnone⟩ := List.find?_eq_some_iff_append.mp hfind
  rcases List.mem_append.mp hb with hb | hb
  · simpa [hpb] using hnone b hb
  · obtain rfl | hb := List.mem_cons.mp hb
    · exact hrefl _
    · exact List.rel_of_pairwise_cons (List.pairwise_append.mp hsorted).2.1 hb

/-- Where a divider fits the rate, RateSel gives the least that does (R150). -/
theorem rateSel_of_fits {p : Params} {hz : Nat} {d : Divider} (hd : p.fRef ≤ hz * dividerValue d) :
    p.fRef ≤ hz * dividerValue (rateSel p hz) ∧ dividerValue (rateSel p hz) ≤ dividerValue d := by
  have hfits : decide (p.fRef ≤ hz * dividerValue d) = true := by simpa using hd
  have hsome : (dividers.find? fun e => p.fRef ≤ hz * dividerValue e).isSome :=
    List.find?_isSome.mpr ⟨d, mem_dividers d, hfits⟩
  obtain ⟨e, hfind⟩ := Option.isSome_iff_exists.mp hsome
  have hsel : rateSel p hz = e := by rw [rateSel, hfind, Option.getD_some]
  rw [hsel]
  exact ⟨by simpa using List.find?_some hfind,
    rel_of_find? (r := fun d e => dividerValue d ≤ dividerValue e) (fun _ => le_rfl) dividers_rising hfind
      (mem_dividers d) hfits⟩

/-- Where no divider fits the rate, RateSel gives 256 (R150). -/
theorem rateSel_of_none {p : Params} {hz : Nat} (h : ∀ d : Divider, ¬ p.fRef ≤ hz * dividerValue d) :
    rateSel p hz = .d256 := by
  have hnone : dividers.find? (fun d => p.fRef ≤ hz * dividerValue d) = none :=
    List.find?_eq_none.mpr fun d _ => by simpa using h d
  rw [rateSel, hnone, Option.getD_none]

/-- Settles O7: the dividers stand in rising order, so the first that fits is the least. -/
theorem rateSelLeast : Obligations.RateSelLeast :=
  fun _ _ => ⟨fun _ hd => rateSel_of_fits hd, rateSel_of_none, fun _ => rfl⟩

/-! ## SET_CLOCK -/

/-- Settles O33, by the check of R166 on the rate 0. -/
theorem setClockSelects : Obligations.SetClockSelects := by
  intro s hz
  constructor
  · intro hne
    exact if_neg hne
  · intro hzero
    exact if_pos hzero

end Sys2Proof.Machine
end

section
/-! SUPPORT. The operations of the bridge as whole updates (R153 to R156), and the statements about its commands BEGIN,
EXCHANGE, END and SET_GPIO (R161 to R164). -/

namespace Sys2Proof.Machine

/-! ## CsWrite -/

/-- Asserting CS_N waits before and after the pin event (R154). -/
theorem State.csWrite_assert {s : State} (h : s.csN = true) : s.csWrite false = { s with
    csN := false
    log := gains s.owner [.wait .csd s.cfg.tCsd, .pin .csN false, .wait .css s.cfg.tCss] s.log } :=
  if_pos ⟨rfl, h⟩

/-- Deasserting CS_N waits before the pin event (R154). -/
theorem State.csWrite_deassert {s : State} (h : s.csN = false) : s.csWrite true = { s with
    csN := true
    log := gains s.owner [.wait .csh s.cfg.tCsh, .pin .csN true] s.log } :=
  (if_neg nofun).trans (if_pos ⟨rfl, h⟩)

/-- Writing the level that CS_N has waits for nothing (R154). -/
theorem State.csWrite_same {s : State} {v : Bool} (h : s.csN = v) :
    s.csWrite v = { s with csN := v, log := gains s.owner [.pin .csN v] s.log } :=
  (if_neg fun ⟨hv, hcs⟩ => by simp [← h, hcs] at hv).trans (if_neg fun ⟨hv, hcs⟩ => by simp [← h, hcs] at hv)

/-- CsWrite neither reads nor writes BR_TXN. -/
theorem State.csWrite_setTxn (s : State) (v b : Bool) :
    { s.csWrite v with brTxn := b } = State.csWrite { s with brTxn := b } v := by
  unfold State.csWrite
  split
  · rfl
  · split <;> rfl

/-- Settles O26. -/
theorem csWriteSequence : Obligations.CsWriteSequence :=
  fun _ => ⟨State.csWrite_assert, State.csWrite_deassert, fun _ => State.csWrite_same⟩

/-! ## BEGIN and END -/

/-- What BEGIN does under the lease, as one update and CsWrite (R161). -/
theorem beginTransaction_eq {s : State} (howner : s.owner = some .ch0) : beginTransaction s = State.csWrite { s with
    sck := false
    sdo := false
    pinMode := .spi
    activeDiv := s.brDiv
    brTxn := true
    log := gains (some .ch0) [.mode .spi, .div s.brDiv] s.log } false := by
  rw [← howner]
  exact State.csWrite_setTxn _ _ _

@[simp] theorem State.leased_brDiv (s : State) (c : Chan) : (s.leased c).brDiv = s.brDiv := by
  unfold State.leased; split <;> simp

/-- Settles O27: a channel that can lease runs `beginTransaction` from its leased state. -/
theorem beginOpensTransaction : Obligations.BeginOpensTransaction := by
  constructor
  · intro s htxn hcan
    have hexec : exec .spiBegin s = .next ((beginTransaction (s.leased .ch0)).answersKeeping .ch0 [0x00]) :=
      (if_neg (by simp [htxn])).trans (hcan.underLease _)
    rw [hexec, beginTransaction_eq hcan.leased_owner, ← State.leased_brDiv s .ch0]
  · intro s htxn
    exact if_pos htxn

/-- Settles O30: the owner of the lease runs END's bus action. -/
theorem endClosesTransaction : Obligations.EndClosesTransaction := by
  constructor
  · intro s htxn howner
    have hexec : exec .spiEnd s = .next (State.answers { s.csWrite true with brTxn := false } .ch0 [0x00]) :=
      (if_neg (by simp [htxn])).trans (onBus_owner _ howner)
    rw [hexec, State.csWrite_setTxn]
  · intro s htxn
    exact if_pos htxn

/-! ## EXCHANGE -/

/-- The bits of an SPI byte leave the last of them on SDO (R153). -/
theorem spiBits_sdo (bs : List Bool) (s : State) : (spiBits bs s).2.sdo = bs.getLast?.getD s.sdo := by
  induction bs generalizing s with
  | nil => rfl
  | cons b bs ih =>
    simp only [spiBits, ih, List.getLast?_cons, Option.getD_some]
    rw [State.drawBit_eq]

/-- Every bit cycle ends with SCK low (R153). -/
theorem spiBits_cons_sck (b : Bool) (bs : List Bool) (s : State) : (spiBits (b :: bs) s).2.sck = false :=
  spiBits_sck bs _ rfl

/-- One byte exchange as one update (R153). -/
theorem spiXferByte_eq (tx : Byte) (s : State) : (spiXferByte tx s).2 = { s with
    sck := false
    sdo := tx.getLsbD 0
    draws := (spiXferByte tx s).2.draws
    log := gains s.owner [.spi tx (spiXferByte tx s).1] s.log } := by
  have hframe : (spiBits (spiWireBits tx) s).2 = _ := spiBits_spi (spiWireBits tx) s
  have hsck : (spiBits (spiWireBits tx) s).2.sck = false := by
    rw [spiWireBits_eq, spiBits_cons_sck]
  have hsdo : (spiBits (spiWireBits tx) s).2.sdo = tx.getLsbD 0 := spiBits_sdo _ s
  rw [hsck, hsdo] at hframe
  have hlog : (spiXferByte tx s).2 = (spiBits (spiWireBits tx) s).2.logEv (.spi tx (spiXferByte tx s).1) := rfl
  rw [hlog, hframe]
  rfl

/-- The byte exchanges of a frame as one update (R162). -/
theorem spiExchangeBytes_eq (data : List Byte) (s : State) : (spiExchangeBytes data s).2 = { s with
    sck := if data = [] then s.sck else false
    sdo := (data.getLast?.map fun b : Byte => b.getLsbD 0).getD s.sdo
    draws := (spiExchangeBytes data s).2.draws
    log := gains s.owner (List.zipWith EventKind.spi data (spiExchangeBytes data s).1) s.log } := by
  induction data generalizing s with
  | nil => rfl
  | cons tx txs ih =>
    have hstep : (spiExchangeBytes (tx :: txs) s).2 = (spiExchangeBytes txs (spiXferByte tx s).2).2 := rfl
    have hread : (spiExchangeBytes (tx :: txs) s).1 =
      (spiXferByte tx s).1 :: (spiExchangeBytes txs (spiXferByte tx s).2).1 := rfl
    have hsdo : (txs.getLast?.map fun b : Byte => b.getLsbD 0).getD (tx.getLsbD 0) =
        (((tx :: txs).getLast?.map fun b : Byte => b.getLsbD 0).getD s.sdo) := by
      rw [List.getLast?_cons]; cases txs.getLast? <;> rfl
    rw [hstep, hread, ih, spiXferByte_eq]
    simp only [hsdo, ite_self, reduceCtorEq, if_false, List.zipWith_cons_cons, gains_cons]
    rfl

/-- Settles O28: the byte exchanges of the frame, whose answers and draws are the witnesses. -/
theorem exchangeRuns : Obligations.ExchangeRuns := by
  constructor
  · intro s data htxn howner hmode
    refine ⟨(spiExchangeBytes data s).1, (spiExchangeBytes data s).2.draws, spiExchangeBytes_length data s, ?_⟩
    rw [execSpiExchange_inTransaction data htxn howner hmode, ← howner, ← spiExchangeBytes_eq]
    rfl
  · intro s data htxn
    exact if_pos htxn

/-! ## SET_GPIO -/

/-- The level bytes 0 and 1 name their bit 0 (R85). -/
theorem bridgeLevel_bit {level : Byte} (h : level.toNat ≤ 1) : bridgeLevel level = some (level.getLsbD 0) := by
  obtain rfl | rfl : level = 0x00 ∨ level = 0x01 := by bv_omega
  · rfl
  · rfl

theorem bridgeLevel_none {level : Byte} (h : 1 < level.toNat) : bridgeLevel level = none := by
  unfold bridgeLevel
  rw [if_neg (by bv_omega), if_neg (by bv_omega)]

/-- Only the pin numbers 0 to 2 name an output (R85). -/
theorem bridgePin_notOutput {pin : Byte} (h : 2 < pin.toNat) (p : OutPin) : bridgePin pin ≠ .output p := by
  unfold bridgePin
  rw [if_neg (by bv_omega), if_neg (by bv_omega), if_neg (by bv_omega)]
  split <;> nofun

/-- SET_GPIO of an output and a level writes that output (R164). -/
theorem exec_setGpio {pin level : Byte} {p : OutPin} (s : State) (hpin : bridgePin pin = .output p)
    (hlevel : level.toNat ≤ 1) : exec (.setGpio pin level) s = setOutput p (level.getLsbD 0) s := by
  simp only [exec, execSetGpio, hpin, bridgeLevel_bit hlevel]

/-- An operand error of SET_GPIO (R164). -/
theorem exec_setGpio_invalid {pin level : Byte} (s : State) (h : 2 < pin.toNat ∨ 1 < level.toNat) :
    exec (.setGpio pin level) s = .next (s.answersKeeping .ch0 [0x01]) := by
  simp only [exec, execSetGpio]
  split
  · rename_i p v hpin hlevel
    obtain hp | hl := h
    · exact absurd hpin (bridgePin_notOutput hp p)
    · simp [bridgeLevel_none hl] at hlevel
  · rfl

/-- Inside the transaction the held lease serves for the pins that are not the chip select (R164). -/
theorem setOutput_inTransaction {s : State} {p : OutPin} (v : Bool) (hp : p ≠ .csN) (htxn : s.brTxn = true)
    (howner : s.owner = some .ch0) : setOutput p v s = .next ((s.setPin p v).answersKeeping .ch0 [0x00]) := by
  cases p with
  | csN => exact absurd rfl hp
  | resetN => exact (if_pos htxn).trans (onBus_owner _ howner)
  | powerEn => exact (if_pos htxn).trans (onBus_owner _ howner)

/-- Outside a transaction those pins take a lease of the frame (R164). -/
theorem setOutput_leased {s : State} {p : OutPin} (v : Bool) (hp : p ≠ .csN) (htxn : s.brTxn = false)
    (hcan : s.CanLease .ch0) :
    setOutput p v s = .next (((s.leased .ch0).setPin p v).answers .ch0 [0x00]) := by
  have hno : ¬ s.brTxn = true := by simp [htxn]
  cases p with
  | csN => exact absurd rfl hp
  | resetN => exact (if_neg hno).trans (hcan.underLease _)
  | powerEn => exact (if_neg hno).trans (hcan.underLease _)

/-- The chip select is written by CsWrite, inside the transaction only (R164). -/
theorem setOutput_csN {s : State} (v : Bool) (htxn : s.brTxn = true) (howner : s.owner = some .ch0) :
    setOutput .csN v s = .next ((s.csWrite v).answersKeeping .ch0 [0x00]) :=
  (if_neg (by simp [htxn])).trans (onBus_owner _ howner)

/-- Settles O31, pin by pin. -/
theorem setGpioWrites : Obligations.SetGpioWrites := by
  intro s pin level
  refine ⟨exec_setGpio_invalid s, fun hlevel => ?_⟩
  rw [exec_setGpio (pin := 0x00) s rfl hlevel, exec_setGpio (pin := 0x01) s rfl hlevel,
    exec_setGpio (pin := 0x02) s rfl hlevel]
  refine ⟨fun htxn => if_pos htxn, fun htxn howner => ⟨setOutput_csN _ htxn howner, ?_, ?_⟩,
    fun htxn hcan => ⟨?_, ?_⟩⟩
  · rw [← howner]; exact setOutput_inTransaction (p := .resetN) _ nofun htxn howner
  · rw [← howner]; exact setOutput_inTransaction (p := .powerEn) _ nofun htxn howner
  · rw [← hcan.leased_owner]; exact setOutput_leased (p := .resetN) _ nofun htxn hcan
  · rw [← hcan.leased_owner]; exact setOutput_leased (p := .powerEn) _ nofun htxn hcan

end Sys2Proof.Machine
end

section
/-! SUPPORT. A whole transaction of the bridge on the wire (R157): BEGIN, EXCHANGE and END, each with the end of its
command, lead from a free lease through an open transaction to a free lease. -/

namespace Sys2Proof.Machine

/-! ## The end of a command with no event ahead -/

/-- A command that keeps the lease ends in its front end alone (R121). -/
theorem State.answersKeeping_endCommand {s : State} (c : Chan) (f : Frame) (hahead : s.ahead = []) :
    (s.answersKeeping c f).endCommand c = .next (s.setFront c ((s.front c).ended (some f))) := by
  have hphase : ((s.answersKeeping c f).front c).phase = .ran (some f) false := by
    rw [State.answersKeeping, State.respond_front_self]
  have hnone : (s.answersKeeping c f).ahead = [] := by rw [State.answersKeeping, State.respond_ahead, hahead]
  rw [State.endCommand_keeping hphase, State.finishBus_of_nil c hnone, State.answersKeeping, State.respond_front_self]
  exact congrArg _ (s.setFront_setFront c _ _)

/-- A bridge command that releases its lease while nobody waits leaves the lease free (R121, R129). -/
theorem State.answers_endCommand {s : State} (f : Frame) (hahead : s.ahead = []) (howner : s.owner = some .ch0)
    (hpending : s.pending = []) : (s.answers .ch0 f).endCommand .ch0 =
      .next (State.setFront { s with owner := none, log := gains (some .ch0) [.release .ch0] s.log } .ch0
        ((s.front .ch0).ended (some f))) := by
  have hphase : ((s.answers .ch0 f).front .ch0).phase = .ran (some f) true := by
    rw [State.answers, State.respond_front_self]
  have hclose : ((s.answers .ch0 f).finishBus .ch0).closeCommand .ch0 = s.answers .ch0 f :=
    State.finishBus_of_nil .ch0 (s := s.answers .ch0 f) hahead
  rw [State.endCommand_releasing hphase, hclose,
    State.release_nobody (s := s.answers .ch0 f) howner hpending, andThen_next_left]
  rfl

/-! ## The three commands -/

/-- A transaction of the bridge is open, with no event ahead and nobody waiting for the lease. -/
structure State.OpenTxn (s : State) : Prop where
  txn : s.brTxn = true
  owner : s.owner = some .ch0
  mode : s.pinMode = .spi
  asserted : s.csN = false
  noneAhead : s.ahead = []
  noneWaits : s.pending = []

theorem State.OpenTxn.setFront {s : State} (h : s.OpenTxn) (c : Chan) (f : Front) : (s.setFront c f).OpenTxn := by
  obtain ⟨htxn, howner, hmode, hcs, hahead, hpending⟩ := h
  constructor <;> simpa

/-- The state after a grant of a free lease (R126). -/
theorem State.leased_free {s : State} {c : Chan} (hphase : (s.front c).phase ≠ .granted) : s.leased c =
    State.setPhase { s with
      owner := some c, pending := [], lastGrant := c, log := gains (some c) [.grant c] s.log } c .granted :=
  if_neg hphase

/-- BEGIN takes a free lease, asserts CS_N, and leaves the transaction open (R157, R161). -/
theorem spiBegin_opens {s : State} (htxn : s.brTxn = false) (hfree : s.Free) (hphase : (s.front .ch0).phase ≠ .granted)
    (hcs : s.csN = true) (hahead : s.ahead = []) :
    ∃ t u, exec .spiBegin s = .next t ∧ t.response .ch0 = some [0x00] ∧ t.endCommand .ch0 = .next u ∧ u.OpenTxn ∧
      u.cfg = s.cfg ∧ u.log = gains (some .ch0) [.grant .ch0, .mode .spi, .div s.brDiv, .wait .csd s.cfg.tCsd,
        .pin .csN false, .wait .css s.cfg.tCss] s.log := by
  have hexec := beginOpensTransaction.1 s htxn (.inr ⟨hphase, hfree⟩)
  rw [State.csWrite_assert (by rw [State.leased_free hphase]; exact hcs)] at hexec
  refine ⟨_, _, hexec, State.respond_response .., State.answersKeeping_endCommand .ch0 _ ?_, .setFront ?_ _ _, ?_, ?_⟩
  all_goals rw [State.leased_free hphase]
  · exact hahead
  · exact ⟨rfl, rfl, rfl, rfl, hahead, rfl⟩
  · rfl
  · rfl

/-- EXCHANGE puts its bytes on the wire and leaves the transaction open (R157, R162). -/
theorem State.OpenTxn.spiExchange {s : State} (h : s.OpenTxn) (data : List Byte) :
    ∃ (rx : List Byte) (t u : State), rx.length = data.length ∧ exec (.spiExchange data) s = .next t ∧
      t.response .ch0 = some (0x00 :: rx) ∧ t.endCommand .ch0 = .next u ∧ u.OpenTxn ∧ u.cfg = s.cfg ∧
      u.log = gains (some .ch0) (List.zipWith EventKind.spi data rx) s.log := by
  obtain ⟨rx, dr, hlen, hexec⟩ := exchangeRuns.1 s data h.txn h.owner h.mode
  refine ⟨rx, _, _, hlen, hexec, State.respond_response .., State.answersKeeping_endCommand .ch0 _ h.noneAhead,
    .setFront ?_ _ _, rfl, rfl⟩
  exact ⟨h.txn, h.owner, h.mode, h.asserted, h.noneAhead, h.noneWaits⟩

/-- END deasserts CS_N and leaves the lease free (R157, R163). -/
theorem State.OpenTxn.spiEnd {s : State} (h : s.OpenTxn) :
    ∃ t u, exec .spiEnd s = .next t ∧ t.response .ch0 = some [0x00] ∧ t.endCommand .ch0 = .next u ∧ u.owner = none ∧
      u.brTxn = false ∧ u.csN = true ∧
      u.log = gains (some .ch0) [.wait .csh s.cfg.tCsh, .pin .csN true, .release .ch0] s.log := by
  have hexec := endClosesTransaction.1 s h.txn h.owner
  rw [State.csWrite_deassert (s := { s with brTxn := false }) h.asserted] at hexec
  refine ⟨_, _, hexec, State.respond_response .., State.answers_endCommand _ h.noneAhead h.owner h.noneWaits, rfl, rfl,
    rfl, ?_⟩
  rw [State.setFront_log, h.owner]
  rfl

/-- Settles O35: BEGIN opens the transaction, EXCHANGE keeps it open and END closes it; their events stand one after
another. -/
theorem transactionOnTheWire : Obligations.TransactionOnTheWire := by
  intro s data hinv htxn howner hidle
  have hahead : s.ahead = [] := (s.inv_iff.mp hinv).1.logs.noneAhead_free howner
  obtain ⟨t1, t2, hbegin, hresp1, hend1, hopen2, hcfg2, hlog2⟩ := spiBegin_opens htxn
    ⟨howner, hinv.freeNoneWaiting howner⟩ (by rw [hidle]; nofun) (hinv.csN_of_closed htxn hahead) hahead
  obtain ⟨rx, t3, t4, hlen, hexch, hresp3, hend3, hopen4, hcfg4, hlog4⟩ := hopen2.spiExchange data
  obtain ⟨t5, t6, hspiEnd, hresp5, hend5, hfree, hclosed, hcs, hlog6⟩ := hopen4.spiEnd
  refine ⟨t1, t2, t3, t4, t5, t6, rx, hbegin, hresp1, hend1, hexch, hresp3, hend3, hspiEnd, hresp5, hend5, hlen, hfree,
    hclosed, hcs, ?_⟩
  rw [hlog6, hlog4, hlog2, hcfg4, hcfg2, gains_append, gains_append]

end Sys2Proof.Machine
end

section
/-! SUPPORT. The start of a bus command and a raw sequence as whole updates (R190, R205, R221), and the number of SWCLK
cycles that the operations of the SWD engine record (R200, R206). -/

namespace Sys2Proof.Machine

/-! ## The start of a bus command -/

/-- In SWD mode a bus command starts with its divider alone (R221). -/
theorem State.busStart_inSwd {s : State} (h : s.pinMode = .swd) (d : DapCh) : s.busStart d = { s with
    activeDiv := (s.dap d).swjDiv, log := gains s.owner [.div (s.dap d).swjDiv] s.log } := by
  rw [State.busStart, if_pos h]
  rfl

/-- In any other mode a bus command first sets up the pins (R190, R221). -/
theorem State.busStart_fromOther {s : State} (h : s.pinMode ≠ .swd) (d : DapCh) : s.busStart d = { s with
    sck := true
    sdo := true
    swdioOe := true
    pinMode := .swd
    activeDiv := (s.dap d).swjDiv
    log := gains s.owner [.mode .swd, .swdio true true, .div (s.dap d).swjDiv] s.log } := by
  rw [State.busStart, if_neg h]
  cases d <;> rfl

/-- Settles O42, by whether the pins are in SWD mode. -/
theorem busStart : Obligations.BusStart :=
  fun _ d => ⟨fun h => State.busStart_inSwd h d, fun h => State.busStart_fromOther h d⟩

/-! ## SWCLK cycles -/

/-- The event is one SWCLK cycle (R46). -/
def EventKind.isCycle : EventKind → Bool
  | .swd _ => true
  | _ => false

theorem swdCycles_eq (log : List Event) : swdCycles log = log.countP fun e => e.kind.isCycle := rfl

theorem swdCycles_gains (o : Option Chan) (ks : List EventKind) (log : List Event) :
    swdCycles (gains o ks log) = swdCycles log + ks.countP EventKind.isCycle := by
  simp only [swdCycles_eq, gains, List.countP_append, List.countP_reverse, List.countP_map]
  exact Nat.add_comm ..

@[simp] theorem countP_isCycle_drives (bs : List Bool) : (drives bs).countP EventKind.isCycle = bs.length := by
  rw [drives, List.countP_map]
  exact List.countP_eq_length.mpr fun _ _ => rfl

@[simp] theorem countP_isCycle_clocks (n : Nat) : (clocks n).countP EventKind.isCycle = n := by
  simp [clocks, List.countP_replicate, EventKind.isCycle]

@[simp] theorem EventKind.isCycle_swdio (oe level : Bool) : (EventKind.swdio oe level).isCycle = false := rfl

/-- The start of a bus command clocks nothing (R221). -/
theorem State.busStart_cycles (s : State) (d : DapCh) : swdCycles (s.busStart d).log = swdCycles s.log := by
  by_cases h : s.pinMode = .swd
  · rw [State.busStart_inSwd h, swdCycles_gains]
    rfl
  · rw [State.busStart_fromOther h, swdCycles_gains]
    rfl

/-- Taking the lease clocks nothing (R126). -/
theorem State.leased_cycles (s : State) (c : Chan) : swdCycles (s.leased c).log = swdCycles s.log := by
  unfold State.leased
  split
  · rfl
  · rw [State.setPhase_log]
    exact swdCycles_gains (some c) [.grant c] s.log

/-! ## Raw sequences -/

/-- Driven cycles as one update: SDO keeps the last bit (R191). -/
theorem driveBits_eq {bs : List Bool} (hne : bs ≠ []) (s : State) : driveBits bs s = { s with
    sck := true, sdo := bs.getLast?.getD false, log := gains s.owner (drives bs) s.log } := by
  induction bs generalizing s with
  | nil => exact absurd rfl hne
  | cons b bs ih =>
    cases bs with
    | nil => rfl
    | cons c cs =>
      have hlog : gains s.owner (drives (b :: c :: cs)) s.log = gains s.owner (drives (c :: cs)) (s.driveBit b).log :=
        gains_cons ..
      rw [driveBits, ih (List.cons_ne_nil c cs), hlog, List.getLast?_cons_cons]
      rfl

/-- A raw sequence takes SWDIO and drives its bits (R205). -/
theorem swjBits_eq {bs : List Bool} (hne : bs ≠ []) (s : State) : swjBits bs s = { s with
    sck := true
    swdioOe := true
    sdo := bs.getLast?.getD false
    log := gains s.owner (.swdio true s.sdo :: drives bs) s.log } := by
  rw [swjBits, driveBits_eq hne, gains_cons]
  rfl

/-- A sequence has 1 to 256 bits (R101). -/
theorem seqBitCount_pos (count : Byte) : 0 < seqBitCount count := by
  unfold seqBitCount
  split
  · decide
  · rename_i h
    exact Nat.pos_of_ne_zero fun hzero => h (BitVec.eq_of_toNat_eq hzero)

theorem seqBits_length (count : Byte) (data : List Byte) : (seqBits count data).length = seqBitCount count := by
  simp [seqBits]

theorem seqBits_ne_nil (count : Byte) (data : List Byte) : seqBits count data ≠ [] :=
  List.ne_nil_of_length_pos (seqBits_length count data ▸ seqBitCount_pos count)

/-- DAP_SWJ_Sequence on a connected channel that can lease drives its bits (R271). -/
theorem execDapSwjSequence_connected {s : State} {d : DapCh} (count : Byte) (data : List Byte)
    (hcan : s.CanLease d.chan) (hconn : (s.dap d).dapState ≠ .disconnected) :
    exec (.dapSwjSequence d count data) s = .next
      ((swjBits (seqBits count data) ((s.leased d.chan).busStart d)).answers d.chan [0x12, dapOk]) := by
  have hconnected : (s.leased d.chan).connected d = true := by simpa [State.connected] using hconn
  simp only [exec, execDapSwjSequence, leasedCommand, hcan.underLease, hconnected, if_true]
  rfl

/-- Settles O49: the bits of the frame are driven from the started bus, one cycle each. -/
theorem swjSequenceExact : Obligations.SwjSequenceExact := by
  intro s d count data hcan hconn n bits u
  have howner : u.owner = some d.chan := (State.busStart_owner ..).trans hcan.leased_owner
  refine ⟨?_, ?_, ?_⟩
  · rw [execDapSwjSequence_connected count data hcan hconn, swjBits_eq (seqBits_ne_nil count data), ← howner]
    rfl
  · have hlength : bits.length = n := seqBits_length count data
    rw [swdCycles_gains, State.busStart_cycles, State.leased_cycles]
    simp [hlength]
  · show ((s.leased d.chan).busStart d).activeDiv = _
    rw [State.busStart_eq, State.leased_dap]

end Sys2Proof.Machine
end

section
/-! SUPPORT. The end of a packet and its SWCLK cycles, whatever levels are drawn (R197, R200, R212). -/

namespace Sys2Proof.Machine

/-! ## The last event -/

/-- Every path of a packet ends with SWDIO driven high (R197, R212). -/
theorem swdXfer_ends (d : DapCh) (r : Nibble) (w : Word) (s : State) :
    ∃ u : State, (swdXfer d r w s).2 = u.setSwdio true true := by
  simp only [swdXfer]
  split
  · split
    · exact ⟨_, rfl⟩
    · exact ⟨_, rfl⟩
  · split
    · exact ⟨_, rfl⟩
    · exact ⟨_, rfl⟩

/-- Settles O38: the line is at rest, and the last operation of every path is SetSwdio(1, 1). -/
theorem exitLevels : Obligations.ExitLevels := by
  intro s d r w
  obtain ⟨hsck, hsdo, hoe⟩ := swdXfer_rest d r w s
  obtain ⟨u, hend⟩ := swdXfer_ends d r w s
  have howner : u.owner = s.owner := (congrArg State.owner hend).symm.trans (swdXfer_wire d r w s).owner
  refine ⟨hsck, hsdo, hoe, ?_⟩
  rw [hend, ← howner]
  rfl

/-! ## Cycles -/

/-- From `s` to `t` the wire moves and LOG gains `n` SWCLK cycles. -/
structure Clocked (s t : State) (n : Nat) : Prop where
  wire : SameButWire s t
  cycles : swdCycles t.log = swdCycles s.log + n

theorem Clocked.refl (s : State) : Clocked s s 0 := ⟨.refl s, rfl⟩

theorem Clocked.trans {s t u : State} {m n : Nat} (h : Clocked s t m) (k : Clocked t u n) : Clocked s u (m + n) :=
  ⟨h.wire.trans k.wire, by rw [k.cycles, h.cycles, Nat.add_assoc]⟩

theorem Clocked.of_eq {s t : State} {m n : Nat} (h : Clocked s t m) (hmn : m = n) : Clocked s t n := hmn ▸ h

/-- A run of the wire clocks as often as its events say. -/
theorem WireRun.clocked {s t : State} {ks : List EventKind} {bs : List Bool} (h : WireRun s t ks bs) :
    Clocked s t (ks.countP EventKind.isCycle) :=
  ⟨by rw [SameButWire, h.frame], by rw [h.log, swdCycles_gains]⟩

/-- A sampled cycle is one cycle, whatever is drawn (R192). -/
theorem sampleBit_clocked (s : State) : Clocked s s.sampleBit.2 1 := by
  refine ⟨sampleBit_wire s, ?_⟩
  simp only [State.sampleBit]
  rw [State.drawBit_eq]
  exact swdCycles_gains s.owner (samples [_]) s.log

theorem sampleBits_clocked (n : Nat) (s : State) : Clocked s (sampleBits n s).2 n := by
  induction n generalizing s with
  | zero => exact .refl s
  | succ n ih => exact ((sampleBit_clocked s).trans (ih _)).of_eq (Nat.add_comm 1 n)

/-- The request, the turnaround and the ACK (R197). -/
theorem swdRequest_clocked (d : DapCh) (r : Nibble) (s : State) :
    Clocked s (swdRequest d r s).2 (8 + (s.dap d).turnaround + 3) := by
  have hrelease := (WireRun.driveBits (requestBits r) s).trans (.setSwdio _ false (driveBits (requestBits r) s).sdo)
  have hturn := hrelease.trans (.clockCycles (s.dap d).turnaround _)
  exact (hturn.clocked.trans (sampleBits_clocked 3 _)).of_eq (by simp [requestBits])

theorem countP_isCycle_idleEvents (x : DapRegs) :
    (idleEvents x).countP EventKind.isCycle = x.idleCycles.toNat := by
  simp [idleEvents]

theorem swdReadPhase_clocked (d : DapCh) (s : State) :
    Clocked s (swdReadPhase d s).2 (33 + (s.dap d).turnaround + (s.dap d).idleCycles.toNat) := by
  have hread := (sampleBits_clocked 32 s).trans (sampleBit_clocked _)
  have hturn := hread.trans (WireRun.turnHost (s.dap d).turnaround _).clocked
  have hidle := hturn.trans (swdIdle_run d _).clocked
  rw [hturn.wire.dap d, countP_isCycle_idleEvents] at hidle
  exact hidle.of_eq (by simp)

theorem swdWritePhase_clocked (d : DapCh) (w : Word) (s : State) :
    Clocked s (swdWritePhase d w s).2 (33 + (s.dap d).turnaround + (s.dap d).idleCycles.toNat) := by
  refine (swdWritePhase_run d w s).2.clocked.of_eq ?_
  simp only [writeEvents, List.countP_append, countP_isCycle_idleEvents, countP_isCycle_drives, countP_isCycle_clocks]
  simp [Nat.add_comm]

/-- With DATA_PHASE a WAIT or FAULT has 33 more cycles, undriven for a read and driven for a write (R201). -/
theorem swdNackPhase_clocked (d : DapCh) (r : Nibble) (s : State) :
    Clocked s (swdNackPhase d r s) ((s.dap d).turnaround + if (s.dap d).dataPhase then 33 else 0) := by
  refine (swdNackPhase_run d r s).clocked.of_eq ?_
  simp only [nackEvents]
  cases (s.dap d).dataPhase with
  | false => simp
  | true =>
    cases r.getLsbD 1 with
    | false => simp
    | true => simp [Nat.add_comm]

theorem swdBackOff_clocked (d : DapCh) (s : State) : Clocked s (swdBackOff d s) ((s.dap d).turnaround + 33) := by
  simpa using (swdBackOff_run d s).clocked

/-! ## The cycles of a packet by its result -/

/-- The cycles of a packet that answers `ack` (R200). -/
def xferCycles (x : DapRegs) (ack : Byte) : Nat :=
  if ack = 0x01 ∨ ack = 0x08 then 8 + x.turnaround + 3 + 33 + x.turnaround + x.idleCycles.toNat
  else if ack = 0x02 ∨ ack = 0x04 then 8 + x.turnaround + 3 + x.turnaround + (if x.dataPhase then 33 else 0)
  else 8 + x.turnaround + 3 + x.turnaround + 33

section

variable (x : DapRegs) {ack : Byte}

theorem xferCycles_ok (h : ack = ackOk ∨ ack = ackParity) :
    xferCycles x ack = 8 + x.turnaround + 3 + 33 + x.turnaround + x.idleCycles.toNat := if_pos h

theorem xferCycles_nack (hok : ¬ (ack = ackOk ∨ ack = ackParity)) (h : ack = ackWait ∨ ack = ackFault) :
    xferCycles x ack = 8 + x.turnaround + 3 + x.turnaround + (if x.dataPhase then 33 else 0) :=
  (if_neg hok).trans (if_pos h)

theorem xferCycles_protocolError (hok : ¬ (ack = ackOk ∨ ack = ackParity)) (h : ¬ (ack = ackWait ∨ ack = ackFault)) :
    xferCycles x ack = 8 + x.turnaround + 3 + x.turnaround + 33 :=
  (if_neg hok).trans (if_neg h)

end

/-- Three sampled bits are never the parity error, which is the host's own value (R95, R103). -/
theorem ackOf_ne_parity {bs : List Bool} (hlen : bs.length = 3) : ackOf bs ≠ ackParity := by
  obtain ⟨a, b, c, rfl⟩ := List.length_eq_three.mp hlen
  revert a b c
  decide

theorem swdRequest_length (d : DapCh) (r : Nibble) (s : State) : (swdRequest d r s).1.length = 3 :=
  sampleBits_length 3 _

/-- The data phase of an OK read ends with OK or with the parity error (R199). -/
theorem swdReadPhase_ack (d : DapCh) (s : State) :
    (swdReadPhase d s).1.ack = ackOk ∨ (swdReadPhase d s).1.ack = ackParity := ite_eq_or_eq ..

theorem swdWritePhase_ack (d : DapCh) (w : Word) (s : State) : (swdWritePhase d w s).1.ack = ackOk := rfl

/-- A packet clocks as often as its result says, whatever is drawn (R200). -/
theorem swdXfer_clocked (d : DapCh) (r : Nibble) (w : Word) (s : State) :
    Clocked s (swdXfer d r w s).2 (xferCycles (s.dap d) (swdXfer d r w s).1.ack) := by
  have hreq := swdRequest_clocked d r s
  have hdap : (swdRequest d r s).2.dap d = s.dap d := hreq.wire.dap d
  have hparity : ackOf (swdRequest d r s).1 ≠ ackParity := ackOf_ne_parity (swdRequest_length d r s)
  have hnoOk (h : ackOf (swdRequest d r s).1 ≠ ackOk) :
      ¬ (ackOf (swdRequest d r s).1 = ackOk ∨ ackOf (swdRequest d r s).1 = ackParity) := not_or.mpr ⟨h, hparity⟩
  simp only [swdXfer]
  split
  · split
    · refine (hreq.trans (swdReadPhase_clocked d _)).of_eq ?_
      rw [hdap, xferCycles_ok _ (swdReadPhase_ack d _)]
      omega
    · refine (hreq.trans (swdWritePhase_clocked d w _)).of_eq ?_
      rw [hdap, xferCycles_ok _ (.inl (swdWritePhase_ack d w _))]
      omega
  · rename_i hok
    split
    · rename_i hnack
      refine (hreq.trans (swdNackPhase_clocked d r _)).of_eq ?_
      rw [hdap, xferCycles_nack _ (hnoOk hok) hnack, ← Nat.add_assoc]
    · rename_i hnack
      refine (hreq.trans (swdBackOff_clocked d _)).of_eq ?_
      rw [hdap, xferCycles_protocolError _ (hnoOk hok) hnack, ← Nat.add_assoc]

/-- Settles O39: each path clocks what its phases clock. -/
theorem cycleCounts : Obligations.CycleCounts := fun s d r w => (swdXfer_clocked d r w s).cycles

end Sys2Proof.Machine
end

section
/-! SUPPORT. The parity of a read and the retries of a WAIT (R195, R199, R203, R204, R207, R208). -/

namespace Sys2Proof.Machine

/-! ## Parity -/

/-- A chain of exclusive-ors is the parity of the one bits. -/
theorem foldl_xor_eq_parity (bs : List Bool) (a : Bool) :
    bs.foldl (· ^^ ·) a = (a ^^ decide (bs.countP id % 2 = 1)) := by
  induction bs generalizing a with
  | nil => simp
  | cons b bs ih =>
    rw [List.foldl_cons, ih, List.countP_cons]
    cases b with
    | false => simp
    | true =>
      have hflip : decide ((bs.countP id + 1) % 2 = 1) = !decide (bs.countP id % 2 = 1) := by
        rw [← decide_not, decide_eq_decide]
        omega
      simp [hflip]

/-- The parity bit of a word is the number of its one bits modulo 2 (R195). -/
theorem xor32_eq_parity (v : Word) :
    xor32 v = decide ((List.range 32).countP (fun i => v.getLsbD i) % 2 = 1) := by
  rw [xor32, foldl_xor_eq_parity, bitsOf, List.countP_map, Bool.false_xor]
  rfl

/-- Exclusive-ors can be taken bit by bit. -/
theorem foldl_xor_map_xor {α : Type} (f g : α → Bool) (xs : List α) (a b : Bool) :
    (xs.map fun x => f x ^^ g x).foldl (· ^^ ·) (a ^^ b) =
      ((xs.map f).foldl (· ^^ ·) a ^^ (xs.map g).foldl (· ^^ ·) b) := by
  induction xs generalizing a b with
  | nil => rfl
  | cons x xs ih =>
    simp only [List.map_cons, List.foldl_cons, ← ih]
    congr 1
    rw [Bool.xor_assoc, Bool.xor_assoc, Bool.xor_left_comm b]

theorem xor32_xor (v u : Word) : xor32 (v ^^^ u) = (xor32 v ^^ xor32 u) := by
  have hbits : bitsOf (v ^^^ u) = (List.range 32).map fun i => v.getLsbD i ^^ u.getLsbD i :=
    List.map_congr_left fun _ _ => BitVec.getLsbD_xor
  rw [xor32, hbits]
  exact foldl_xor_map_xor v.getLsbD u.getLsbD (List.range 32) false false

/-- A word with one bit set has parity 1. -/
theorem xor32_bit (i : Fin 32) : xor32 (1#32 <<< i.val) = true := by
  have hbit (j : Nat) (hj : j < 32) : (1#32 <<< i.val).getLsbD j = (j == i.val) := by
    rw [BitVec.getLsbD_shiftLeft, BitVec.getLsbD_one]
    grind
  have hcount : (List.range 32).countP (fun j => (1#32 <<< i.val).getLsbD j) = (List.range 32).count i.val :=
    List.countP_congr fun j hj => by rw [hbit j (List.mem_range.mp hj)]
  rw [xor32_eq_parity, hcount, List.count_eq_one_of_mem List.nodup_range (List.mem_range.mpr i.isLt)]
  rfl

/-- Flipping one bit of a word flips its parity (R208). -/
theorem xor32_flip (v : Word) (i : Fin 32) : xor32 (v ^^^ (1#32 <<< i.val)) = !xor32 v := by
  rw [xor32_xor, xor32_bit, Bool.xor_true]

/-- The bits of an OK read of `v` with the parity bit `q` (R104). -/
theorem okReadWithParity_bits {r : Nibble} (hread : r.getLsbD 1 = true) (v : Word) (q : Bool) :
    PacketBits r ([true, false, false] ++ bitsOf v ++ [q]) ∧
      packetResult r ([true, false, false] ++ bitsOf v ++ [q]) =
        ⟨if q = xor32 v then ackOk else ackParity, v⟩ := by
  have hack : ackOf (([true, false, false] ++ bitsOf v ++ [q]).take 3) = ackOk := by
    simp only [List.append_assoc, List.cons_append, List.take_succ_cons, List.take_zero]
    rfl
  have hdata : (([true, false, false] ++ bitsOf v ++ [q]).drop 3).take 32 = bitsOf v := by simp
  have hparity : ([true, false, false] ++ bitsOf v ++ [q]).getD 35 false = q := by
    simp [List.getD_eq_getElem?_getD]
  refine ⟨?_, ?_⟩
  · rw [PacketBits, if_pos ⟨hack, hread⟩]
    simp
  · rw [packetResult_read hack hread, hdata, hparity, ofBits_bitsOf]

/-- Settles O40: the parity counts the one bits, and the packet that samples the listed bits compares the last with
it. -/
theorem parityNeverOk : Obligations.ParityNeverOk := by
  refine ⟨xor32_eq_parity, by decide, by decide, by decide, by decide, by decide, ?_⟩
  intro s d r v q rest hread hdraws
  obtain ⟨hbits, hresult⟩ := okReadWithParity_bits hread v q
  have hxfer : (swdXfer d r 0 s).1 = ⟨if q = xor32 v then ackOk else ackParity, v⟩ := by
    rw [swdXfer_eq d 0 hbits hdraws, hresult]
  rw [hxfer]
  refine ⟨rfl, ?_, ?_, xor32_flip v⟩
  · by_cases hq : q = xor32 v <;> simp [hq, ackOk, ackParity]
  · by_cases hq : q = xor32 v <;> simp [hq, ackOk, ackParity]

/-! ## Retries -/

/-- A WAIT answer samples the ACK alone, for a read and a write alike (R103). -/
theorem waitBits_bits (r : Nibble) : PacketBits r waitBits ∧ packetResult r waitBits = ⟨ackWait, 0⟩ := by
  have hno : ¬ (ackOf (waitBits.take 3) = ackOk ∧ r.getLsbD 1 = true) := fun h => absurd h.1 (by decide)
  exact ⟨(if_neg hno).symm, packetResult_other hno⟩

section

variable {d : DapCh} {r : Nibble} {w : Word} {s : State} {bs rest : List Bool}

/-- A WAIT with a retry left goes on in the loop with one retry less (R203, R204). -/
theorem swdRetryLoop_wait (n : Nat) (hdraws : s.draws.swdio = waitBits ++ rest) :
    ∃ t, swdRetryLoop d r w (n + 1) s = swdRetryLoop d r w n t ∧
      AccessRun d s t (packetEvents (s.dap d) r w waitBits) waitBits ∧ (t.dap d).batch.retryLeft = n := by
  obtain ⟨hbits, hresult⟩ := waitBits_bits r
  have hack : (swdXfer d r w s).1.ack = ackWait := by rw [swdXfer_eq d w hbits hdraws, hresult]
  have hpacket : AccessRun d s (swdXfer d r w s).2 _ _ := .packet r w hbits hdraws
  exact ⟨_, if_pos hack, ((hpacket.setBatch _).setFsm _).setFsm _, by simp⟩

/-- After `n` WAITs within the budget `m` the next answer, which is no WAIT, is the result (R203). -/
theorem swdRetryLoop_answered {n m : Nat} (hn : n ≤ m) (hbits : PacketBits r bs) (hack : ackOf (bs.take 3) ≠ ackWait)
    (hleft : (s.dap d).batch.retryLeft = m)
    (hdraws : s.draws.swdio = (List.replicate n waitBits).flatten ++ bs ++ rest) :
    (swdRetryLoop d r w m s).1 = packetResult r bs ∧
      AccessRun d s (swdRetryLoop d r w m s).2
        ((List.replicate n (packetEvents (s.dap d) r w waitBits)).flatten ++ packetEvents (s.dap d) r w bs)
        ((List.replicate n waitBits).flatten ++ bs) ∧
      ((swdRetryLoop d r w m s).2.dap d).batch.retryLeft = m - n := by
  induction n generalizing m s with
  | zero =>
    have hxfer : (swdXfer d r w s).1 = packetResult r bs := by rw [swdXfer_eq d w hbits hdraws]
    have honce : swdRetryLoop d r w m s = swdXfer d r w s := swdRetryLoop_once fun hwait =>
      absurd (ackOf_of_packetResult_wait (hxfer ▸ hwait)) hack
    rw [honce]
    exact ⟨hxfer, .packet r w hbits hdraws, by rw [(swdXfer_wire d r w s).dap, hleft, Nat.sub_zero]⟩
  | succ n ih =>
    obtain ⟨m, rfl⟩ : ∃ k, m = k + 1 := Nat.exists_eq_add_one.mpr (Nat.zero_lt_of_lt hn)
    rw [List.replicate_succ, List.flatten_cons, List.append_assoc, List.append_assoc] at hdraws
    obtain ⟨t, hloop, hwait, hretry⟩ := swdRetryLoop_wait (d := d) (r := r) (w := w) m hdraws
    obtain ⟨hresult, hrun, hend⟩ := ih (Nat.le_of_succ_le_succ hn) hretry
      (by rw [hwait.left hdraws, List.append_assoc])
    rw [hloop]
    rw [hwait.packetEvents] at hrun
    exact ⟨hresult, by simpa [List.replicate_succ] using hwait.trans hrun, by rw [hend, Nat.add_sub_add_right]⟩

/-- A WAIT on every attempt of the budget is the result (R203, R207). -/
theorem swdRetryLoop_exhausted {m : Nat}
    (hdraws : s.draws.swdio = (List.replicate (m + 1) waitBits).flatten ++ rest) :
    (swdRetryLoop d r w m s).1 = ⟨ackWait, 0⟩ ∧
      AccessRun d s (swdRetryLoop d r w m s).2
        (List.replicate (m + 1) (packetEvents (s.dap d) r w waitBits)).flatten
        (List.replicate (m + 1) waitBits).flatten := by
  induction m generalizing s with
  | zero =>
    obtain ⟨hbits, hresult⟩ := waitBits_bits r
    have hdraws : s.draws.swdio = waitBits ++ rest := hdraws
    exact ⟨by rw [swdRetryLoop, swdXfer_eq d w hbits hdraws, hresult],
      AccessRun.trans (.packet r w hbits hdraws) (.refl d _)⟩
  | succ m ih =>
    rw [List.replicate_succ, List.flatten_cons, List.append_assoc] at hdraws
    obtain ⟨t, hloop, hwait, -⟩ := swdRetryLoop_wait (d := d) (r := r) (w := w) m hdraws
    obtain ⟨hresult, hrun⟩ := ih (hwait.left hdraws)
    rw [hloop]
    rw [hwait.packetEvents] at hrun
    exact ⟨hresult, hwait.trans hrun⟩

end

/-- The state in which the loop of R203 starts: the whole budget left, and XFER_FSM AwaitingAck (R204). -/
def State.armRetry (s : State) (d : DapCh) : State :=
  (s.setBatch d { (s.dap d).batch with retryLeft := (s.dap d).retryCount.toNat }).setFsm d .awaitingAck

theorem State.armRetry_run (s : State) (d : DapCh) : AccessRun d s (s.armRetry d) [] [] :=
  ((AccessRun.refl d s).setBatch _).setFsm _

@[simp] theorem State.armRetry_retryLeft (s : State) (d : DapCh) :
    ((s.armRetry d).dap d).batch.retryLeft = (s.dap d).retryCount.toNat := by
  simp [State.armRetry]

section

variable {d : DapCh} {r : Nibble} {w : Word} {s : State} {bs rest : List Bool}

theorem swdXferRetry_result :
    (swdXferRetry d r w s).1 = (swdRetryLoop d r w (s.dap d).retryCount.toNat (s.armRetry d)).1 := rfl

/-- A transfer with retries makes the accesses of its loop. -/
theorem swdXferRetry_run {ks : List EventKind}
    (h : AccessRun d (s.armRetry d) (swdRetryLoop d r w (s.dap d).retryCount.toNat (s.armRetry d)).2 ks bs) :
    AccessRun d s (swdXferRetry d r w s).2 ks bs :=
  ((s.armRetry_run d).trans h).setFsm _

/-- The end of the transfer leaves RETRY_LEFT as the loop left it (R204). -/
theorem swdXferRetry_retryLeft : ((swdXferRetry d r w s).2.dap d).batch.retryLeft =
    ((swdRetryLoop d r w (s.dap d).retryCount.toNat (s.armRetry d)).2.dap d).batch.retryLeft :=
  congrArg (·.batch.retryLeft) (State.setDap_dap_self ..)

/-- A transfer that is answered within its budget (R203, R207). -/
theorem swdXferRetry_answered {n : Nat} (hn : n ≤ (s.dap d).retryCount.toNat) (hbits : PacketBits r bs)
    (hack : ackOf (bs.take 3) ≠ ackWait)
    (hdraws : s.draws.swdio = (List.replicate n waitBits).flatten ++ bs ++ rest) :
    (swdXferRetry d r w s).1 = packetResult r bs ∧
      AccessRun d s (swdXferRetry d r w s).2
        ((List.replicate n (packetEvents (s.dap d) r w waitBits)).flatten ++ packetEvents (s.dap d) r w bs)
        ((List.replicate n waitBits).flatten ++ bs) ∧
      ((swdXferRetry d r w s).2.dap d).batch.retryLeft = (s.dap d).retryCount.toNat - n := by
  have harm := s.armRetry_run d
  have hleft : (s.armRetry d).draws.swdio = (List.replicate n waitBits).flatten ++ bs ++ rest := harm.left hdraws
  obtain ⟨hresult, hrun, hretry⟩ := swdRetryLoop_answered (w := w) hn hbits hack (s.armRetry_retryLeft d) hleft
  rw [harm.packetEvents] at hrun
  exact ⟨swdXferRetry_result.trans hresult, swdXferRetry_run hrun, swdXferRetry_retryLeft.trans hretry⟩

/-- A transfer that is answered WAIT on every attempt of its budget (R203, R207). -/
theorem swdXferRetry_exhausted
    (hdraws : s.draws.swdio = (List.replicate ((s.dap d).retryCount.toNat + 1) waitBits).flatten ++ rest) :
    (swdXferRetry d r w s).1 = ⟨ackWait, 0⟩ ∧
      AccessRun d s (swdXferRetry d r w s).2
        (List.replicate ((s.dap d).retryCount.toNat + 1) (packetEvents (s.dap d) r w waitBits)).flatten
        (List.replicate ((s.dap d).retryCount.toNat + 1) waitBits).flatten := by
  have harm := s.armRetry_run d
  have hleft : (s.armRetry d).draws.swdio = _ := harm.left hdraws
  obtain ⟨hresult, hrun⟩ := swdRetryLoop_exhausted (r := r) (w := w) hleft
  rw [harm.packetEvents] at hrun
  exact ⟨swdXferRetry_result.trans hresult, swdXferRetry_run hrun⟩

end

/-- Settles O41: the WAITs fit in the budget and the answer after them is the result, or they use it up. -/
theorem retryBudget : Obligations.RetryBudget := by
  intro s d r w v n rest budget last x hdraws
  obtain ⟨hbits, hresult, hack⟩ : PacketBits r last ∧ packetResult r last = ⟨ackOk, if r.getLsbD 1 then v else 0⟩ ∧
      ackOf (last.take 3) = ackOk := Access.answerBits_ok ⟨r, w, false, none⟩ v
  refine ⟨fun hn => ?_, fun hn => ?_⟩
  · obtain ⟨hanswer, hrun, hretry⟩ := swdXferRetry_answered (w := w) hn hbits (by rw [hack]; decide) hdraws
    have hok : x.1 = ⟨ackOk, if r.getLsbD 1 then v else 0⟩ := hanswer.trans hresult
    refine ⟨hok, hrun.left hdraws, ?_, hretry, hrun.log⟩
    exact (swdXferRetry_fsm d r w s).trans (if_pos (congrArg SwdResp.ack hok))
  · have hsplit : List.replicate n waitBits =
        List.replicate (budget + 1) waitBits ++ List.replicate (n - (budget + 1)) waitBits := by
      rw [← List.replicate_add, Nat.add_sub_cancel' hn]
    rw [hsplit, List.flatten_append, List.append_assoc, List.append_assoc, ← List.append_assoc _ last rest] at hdraws
    obtain ⟨hwait, hrun⟩ := swdXferRetry_exhausted (r := r) (w := w) hdraws
    refine ⟨hwait, hrun.left hdraws, ?_, hrun.log⟩
    have hnotOk : x.1.ack ≠ ackOk := by
      rw [show x.1 = ⟨ackWait, 0⟩ from hwait]
      decide
    exact (swdXferRetry_fsm d r w s).trans (if_neg hnotOk)

end Sys2Proof.Machine
end

section
/-! SUPPORT. The DAP commands without transfers, and the transfer commands on a channel that is not connected, as whole
updates of the state (R224 to R228, R239, R248, R249, R262 to R270, R273). -/

namespace Sys2Proof.Machine

/-! ## Commands of a channel that can lease -/

/-- A command of a channel that can lease answers in the same step, and its lease is released as it ends (R125,
R220). -/
theorem State.CanLease.leasedCommand {s : State} {c : Chan} (hcan : s.CanLease c) (k : State → Frame × State) :
    leasedCommand c k s = .next ((k (s.leased c)).2.answers c (k (s.leased c)).1) :=
  hcan.underLease _

theorem State.connected_iff {s : State} {d : DapCh} : s.connected d = true ↔ (s.dap d).dapState ≠ .disconnected := by
  simp [State.connected]

/-- Taking the lease does not connect a channel (R39, R126). -/
theorem State.leased_connected {s : State} {d : DapCh} (hconn : (s.dap d).dapState ≠ .disconnected) :
    (s.leased d.chan).connected d = true :=
  State.connected_iff.mpr (by rwa [State.leased_dap])

theorem State.leased_not_connected {s : State} {d : DapCh} (hconn : (s.dap d).dapState = .disconnected) :
    ¬ (s.leased d.chan).connected d = true :=
  fun h => State.connected_iff.mp h (by rwa [State.leased_dap])

@[simp] theorem State.leased_pinMode (s : State) (c : Chan) : (s.leased c).pinMode = s.pinMode := by
  unfold State.leased
  split
  · rfl
  · rw [State.setPhase_pinMode]

/-! ## Information -/

/-- Settles O43: the commands answer from the leased state, and DAP_TransferAbort from the state itself. -/
theorem informationCommands : Obligations.InformationCommands := by
  refine fun s d => ⟨fun hcan => ⟨fun id => ?_, fun type status => ?_⟩, rfl⟩
  · simp only [exec, execDapInfo, hcan.leasedCommand, State.leased_cfg]
  · simp only [exec, execDapHostStatus, hcan.leasedCommand, dapOk]

/-! ## Connection -/

/-- The ports that select SWD (R97). -/
theorem port_toNat_le_one (port : Byte) : port.toNat ≤ 1 ↔ port = 0x00 ∨ port = 0x01 := by
  bv_omega

/-- Connecting in SWD mode as one update (R190, R226). -/
theorem connectSwd_eq (d : DapCh) (s : State) : connectSwd d s = { s with
    sck := true
    sdo := true
    swdioOe := true
    pinMode := .swd
    activeDiv := (s.dap d).swjDiv
    log := gains s.owner [.mode .swd, .swdio true true, .div (s.dap d).swjDiv] s.log
    }.setDap d { s.dap d with dapState := .idle } := by
  cases d <;> rfl

/-- Disconnecting where SWD holds the pins, as one update (R227). -/
theorem releaseSwdPins_swd {s : State} (h : s.pinMode = .swd) (d : DapCh) (x : DapState) :
    releaseSwdPins (s.setDapState d x) = { s with
      swdioOe := false, pinMode := .hiZ, log := gains s.owner [.mode .hiZ] s.log
      }.setDap d { s.dap d with dapState := x } := by
  rw [releaseSwdPins, if_pos (by rwa [State.setDapState_pinMode])]
  cases d <;> rfl

/-- Pins that SWD does not hold are left (R227). -/
theorem releaseSwdPins_other {s : State} (h : s.pinMode ≠ .swd) (d : DapCh) (x : DapState) :
    releaseSwdPins (s.setDapState d x) = s.setDap d { s.dap d with dapState := x } :=
  if_neg (by rwa [State.setDapState_pinMode])

/-- Settles O44, by the port asked for and by who holds the pins. -/
theorem connectAndDisconnect : Obligations.ConnectAndDisconnect := by
  intro s d hcan
  refine ⟨fun port hport => ?_, fun port hport => ?_, fun hswd => ?_, fun hother => ?_⟩
  · have hsel := (port_toNat_le_one port).mp hport
    simp only [exec, execDapConnect, hcan.leasedCommand, if_pos hsel, connectSwd_eq, hcan.leased_owner,
      State.leased_dap]
  · have hsel := mt (port_toNat_le_one port).mpr (Nat.not_le_of_gt hport)
    simp only [exec, execDapConnect, hcan.leasedCommand, if_neg hsel]
  · have hmode : (s.leased d.chan).pinMode = .swd := by rwa [State.leased_pinMode]
    simp only [exec, execDapDisconnect, hcan.leasedCommand, releaseSwdPins_swd hmode, hcan.leased_owner,
      State.leased_dap, dapOk]
  · have hmode : (s.leased d.chan).pinMode ≠ .swd := by rwa [State.leased_pinMode]
    simp only [exec, execDapDisconnect, hcan.leasedCommand, releaseSwdPins_other hmode, State.leased_dap, dapOk]

/-! ## Configuration -/

/-- The turnaround of a configuration byte is its low two bits and 1 (R98). -/
theorem configTurnaround_eq (config : Byte) : configTurnaround config = config.toNat % 4 + 1 := by
  simp [configTurnaround, BitVec.extractLsb'_toNat]

/-- Settles O45: each command writes the fields of its channel's registers. -/
theorem configurationCommands : Obligations.ConfigurationCommands := by
  intro s d hcan
  refine ⟨fun idle w m => ?_, fun config => ?_, fun hz hne => ?_, ?_⟩
  · simp only [exec, execDapTransferConfigure, hcan.leasedCommand, State.leased_dap, dapOk]
  · simp only [exec, execDapSwdConfigure, hcan.leasedCommand, State.leased_dap, configTurnaround_eq,
      configDataPhase, dapOk]
  · simp only [exec, execDapSwjClock, hcan.leasedCommand, if_neg hne, State.leased_dap, State.leased_cfg, dapOk]
  · simp only [exec, execDapSwjClock, hcan.leasedCommand, if_true, dapError]

/-! ## Delay and target reset -/

/-- A wait as one update (R12). -/
theorem State.wait_eq (s : State) (k : WaitKind) (n : Nat) :
    s.wait k n = { s with log := gains s.owner [.wait k n] s.log } := rfl

/-- The pulse of DAP_ResetTarget as one update (R266). -/
theorem resetPulse_eq (s : State) (n : Nat) : ((s.setPin .resetN false).wait .rst n).setPin .resetN true =
    { s with
      resetN := true
      log := gains s.owner [.pin .resetN false, .wait .rst n, .pin .resetN true] s.log } := rfl

/-- Settles O46: the wait and the pulse are logged under the lease. -/
theorem delayAndResetTarget : Obligations.DelayAndResetTarget := by
  intro s d hcan
  refine ⟨fun us => ?_, ?_⟩
  · simp only [exec, execDapDelay, hcan.leasedCommand, State.wait_eq, hcan.leased_owner, dapOk]
  · simp only [exec, execDapResetTarget, hcan.leasedCommand, resetPulse_eq, hcan.leased_owner, State.leased_cfg, dapOk]

/-! ## Transfer commands that answer at once -/

/-- Settles O47, by the connection, and by the count of a block. -/
theorem notConnectedAnswers : Obligations.NotConnectedAnswers := by
  refine fun s d hcan => ⟨fun hdisc => ?_, fun idx req data => ?_⟩
  · have hno := State.leased_not_connected hdisc
    refine ⟨fun idx reqs => ?_, fun idx count req data => ?_, fun idx a => ?_, fun count data => ?_⟩
    · simp only [exec, execDapTransfer, hcan.leasedCommand, if_neg hno]
    · have hblock : ¬ ((s.leased d.chan).connected d = true ∧ count ≠ 0) := fun h => hno h.1
      simp only [exec, execDapTransferBlock, hcan.leasedCommand, if_neg hblock]
    · simp only [exec, execDapWriteAbort, hcan.leasedCommand, if_neg hno, dapError]
    · simp only [exec, execDapSwjSequence, hcan.leasedCommand, if_neg hno, dapError]
  · have hblock : ¬ ((s.leased d.chan).connected d = true ∧ (0 : Half) ≠ 0) := fun h => h.2 rfl
    simp only [exec, execDapTransferBlock, hcan.leasedCommand, if_neg hblock]

/-! ## DAP_WriteABORT -/

/-- A packet that writes samples its ACK alone (R197). -/
theorem packetBits_write {r : Nibble} (hwrite : r.getLsbD 1 = false) (s0 s1 s2 : Bool) : PacketBits r [s0, s1, s2] :=
  (if_neg fun h => Bool.false_ne_true (hwrite.symm.trans h.2)).symm

/-- Settles O48: the command runs one packet from the started bus, and its result is not looked at. -/
theorem writeAbortSendsOnePacket : Obligations.WriteAbortSendsOnePacket := by
  intro s d idx a s0 s1 s2 rest hcan hconn hdraws
  have hleft : ((s.leased d.chan).busStart d).draws.swdio = [s0, s1, s2] ++ rest := by
    rw [State.busStart_eq, State.leased_draws, hdraws]
  have hpacket := swdXfer_eq d a (packetBits_write (r := abortReg) (by decide) s0 s1 s2) hleft
  rw [State.busStart_dap, State.leased_dap] at hpacket
  simp only [exec, execDapWriteAbort, hcan.leasedCommand, if_pos (State.leased_connected hconn), hpacket]
  rfl

end Sys2Proof.Machine
end

section
/-! SUPPORT. The shape of every batch and block, whatever the target answers (R222, R231, R245, R250): what it counts,
the words it answers and the registers it leaves; and a request that does not end OK ends its batch (R234). -/

namespace Sys2Proof.Machine

/-! ## What accesses leave -/

/-- The packets of an access write RETRY_LEFT alone of the batch registers (R203). -/
theorem swdRetryLoop_batch (d : DapCh) (r : Nibble) (w : Word) (n : Nat) (s : State) :
    ((swdRetryLoop d r w n s).2.dap d).batch =
      { (s.dap d).batch with retryLeft := ((swdRetryLoop d r w n s).2.dap d).batch.retryLeft } := by
  have hpacket (t : State) : (swdXfer d r w t).2.dap d = t.dap d := (swdXfer_wire d r w t).dap d
  induction n generalizing s with
  | zero => rw [swdRetryLoop, hpacket]
  | succ n ih =>
    simp only [swdRetryLoop]
    split
    · rw [ih]
      simp [hpacket]
    · rw [hpacket]

/-- An access leaves MATCH_MASK, POST_READ, CHECK_WRITE and RESP_COUNT, however it ends. -/
@[simp] theorem access_control (d : DapCh) (r : Nibble) (w : Word) (s : State) :
    (access d r w s).2.control d = s.control d := by
  have hbatch := swdRetryLoop_batch d r w (s.dap d).retryCount.toNat (s.armRetry d)
  have hmask := congrArg DapRegs.matchMask (swdXferRetry_access d r w s).dap
  have hretry : ((swdXferRetry d r w s).2.dap d).batch =
      ((swdRetryLoop d r w (s.dap d).retryCount.toNat (s.armRetry d)).2.dap d).batch := by
    simp [swdXferRetry, State.armRetry]
  simp only [access, State.control, State.setBatch_dap_self, hmask, hretry]
  rw [hbatch]
  simp [State.armRetry]

/-- The word of an access goes into the response exactly if the access ends OK (R231). -/
theorem accessEmit_cases (d : DapCh) (r : Nibble) (s : State) :
    ((accessEmit d r s).respValue d = ackOk ∧
      ∃ v, ((accessEmit d r s).dap d).batch.out = (s.dap d).batch.out ++ le32 v) ∨
    ((accessEmit d r s).respValue d ≠ ackOk ∧ ((accessEmit d r s).dap d).batch.out = (s.dap d).batch.out) := by
  simp only [accessEmit]
  split
  · rename_i hok
    exact .inl ⟨(emitWord_respValue ..).trans hok, _, by rw [State.emitWord, State.setBatch_dap_self, access_out]⟩
  · rename_i hfail
    exact .inr ⟨hfail, access_out ..⟩

@[simp] theorem accessEmit_control (d : DapCh) (r : Nibble) (s : State) :
    (accessEmit d r s).control d = s.control d := by
  simp only [accessEmit]
  split
  · rw [emitWord_control, access_control]
  · exact access_control ..

/-! ## Requests count nothing and answer whole words -/

/-- From `s` to `t` the batch of `d` adds whole words to its response data, and RESP_COUNT stays. -/
def AddsWords (d : DapCh) (s t : State) : Prop :=
  (t.dap d).batch.respCount = (s.dap d).batch.respCount ∧
    ∃ ws : List Word, (t.dap d).batch.out = (s.dap d).batch.out ++ ws.flatMap le32

namespace AddsWords

variable {d : DapCh} {s t u : State}

theorem of_eq (hcount : (t.dap d).batch.respCount = (s.dap d).batch.respCount)
    (hout : (t.dap d).batch.out = (s.dap d).batch.out) : AddsWords d s t :=
  ⟨hcount, [], by rw [hout, List.flatMap_nil, List.append_nil]⟩

theorem refl (d : DapCh) (s : State) : AddsWords d s s := of_eq rfl rfl

theorem trans (h : AddsWords d s t) (k : AddsWords d t u) : AddsWords d s u := by
  obtain ⟨hcount, ws, hws⟩ := h
  obtain ⟨kcount, vs, hvs⟩ := k
  exact ⟨kcount.trans hcount, ws ++ vs, by rw [hvs, hws, List.flatMap_append, List.append_assoc]⟩

theorem ite {p : Prop} [Decidable p] (h : AddsWords d s t) (k : AddsWords d s u) :
    AddsWords d s (if p then t else u) := by
  split
  · exact h
  · exact k

theorem thenIf {p : Prop} [Decidable p] (h : AddsWords d s t) (k : AddsWords d t u) :
    AddsWords d s (if p then u else t) :=
  .ite (h.trans k) h

/-- A write of other batch registers. -/
theorem setBatch {b : Batch} (hcount : b.respCount = (s.dap d).batch.respCount)
    (hout : b.out = (s.dap d).batch.out) : AddsWords d s (s.setBatch d b) :=
  of_eq (by rw [State.setBatch_dap_self, hcount]) (by rw [State.setBatch_dap_self, hout])

theorem setPostRead (d : DapCh) (b : Bool) (s : State) : AddsWords d s (s.setPostRead d b) := setBatch rfl rfl

theorem setCheckWrite (d : DapCh) (b : Bool) (s : State) : AddsWords d s (s.setCheckWrite d b) := setBatch rfl rfl

theorem setRespValue (d : DapCh) (v : Byte) (s : State) : AddsWords d s (s.setRespValue d v) := setBatch rfl rfl

theorem setMatchLeft (d : DapCh) (n : Nat) (s : State) :
    AddsWords d s (s.setBatch d { (s.dap d).batch with matchLeft := n }) := setBatch rfl rfl

theorem access (d : DapCh) (r : Nibble) (w : Word) (s : State) : AddsWords d s (access d r w s).2 :=
  of_eq (congrArg BatchControl.count (access_control d r w s)) (access_out ..)

theorem accessEmit (d : DapCh) (r : Nibble) (s : State) : AddsWords d s (accessEmit d r s) := by
  have hcount := congrArg BatchControl.count (accessEmit_control d r s)
  obtain ⟨-, v, hout⟩ | ⟨-, hout⟩ := accessEmit_cases d r s
  · exact ⟨hcount, [v], by rw [hout, List.flatMap_singleton]⟩
  · exact of_eq hcount hout

theorem collect (d : DapCh) (req : Byte) (s : State) : AddsWords d s (collect d req s) :=
  .ite (accessEmit d _ s) ((accessEmit d _ s).trans (setPostRead d _ _))

theorem plainRead (d : DapCh) (req : Byte) (s : State) : AddsWords d s (plainRead d req s) :=
  .ite (.ite (.refl d s) ((access d _ 0 s).thenIf (setPostRead d _ _))) (accessEmit d _ s)

theorem matchLoop (d : DapCh) (r : Nibble) (m : Word) (n : Nat) (s : State) : AddsWords d s (matchLoop d r m n s) := by
  induction n generalizing s with
  | zero => exact .ite (access d r 0 s) (.ite (access d r 0 s) ((access d r 0 s).trans (setRespValue d _ _)))
  | succ n ih =>
    exact .ite (access d r 0 s) (.ite (access d r 0 s) ((access d r 0 s).trans ((setMatchLeft d _ _).trans (ih _))))

theorem matchRead (d : DapCh) (req : Byte) (m : Word) (s : State) : AddsWords d s (matchRead d req m s) := by
  have hstart (t : State) : AddsWords d t (matchStart d (reqNibble req) m t) :=
    (setMatchLeft d _ t).trans (matchLoop d _ m _ _)
  exact .ite ((access d _ 0 s).thenIf (hstart _)) (hstart s)

theorem maskWrite (d : DapCh) (w : Word) (s : State) : AddsWords d s (maskWrite d w s) :=
  of_eq (by simp [Machine.maskWrite, State.setRespValue]) (by simp [Machine.maskWrite, State.setRespValue])

theorem requestBody (d : DapCh) (q : XferReq) (s : State) : AddsWords d s (requestBody d q s) := by
  have hread := ite (p := reqIsMatch q.req = true) (matchRead d q.req (reqWord q) s) (plainRead d q.req s)
  have hwrite : AddsWords d s (regWrite d q.req (reqWord q) s) := (access d _ _ s).thenIf (setCheckWrite d _ _)
  exact .ite (hread.thenIf (setCheckWrite d _ _)) (.ite (maskWrite d _ s) hwrite)

theorem oneRequest (d : DapCh) (q : XferReq) (s : State) : AddsWords d s (oneRequest d q s) :=
  .ite ((collect d q.req s).thenIf (requestBody d q _)) (requestBody d q s)

theorem transferFinish (d : DapCh) (s : State) : AddsWords d s (transferFinish d s) :=
  .ite (.refl d s) (.ite ((accessEmit d _ s).trans (setPostRead d _ _))
    (.ite ((access d _ 0 s).trans (setCheckWrite d _ _)) (.refl d s)))

end AddsWords

/-! ## The count and the words of a DAP_Transfer -/

@[simp] theorem countOne_respValue (s : State) (d : DapCh) : (s.countOne d).respValue d = s.respValue d := by
  simp [State.respValue, State.countOne]

@[simp] theorem countOne_out (s : State) (d : DapCh) : ((s.countOne d).dap d).batch.out = (s.dap d).batch.out := by
  simp [State.countOne]

@[simp] theorem countOne_respCount (s : State) (d : DapCh) :
    ((s.countOne d).dap d).batch.respCount = (s.dap d).batch.respCount + 1 := by
  simp [State.countOne]

/-- A request that ends OK is counted, and the batch goes on (R231). -/
theorem transferLoop_ok {d : DapCh} {q : XferReq} {s : State} (h : (oneRequest d q s).respValue d = ackOk)
    (qs : List XferReq) : transferLoop d (q :: qs) s = transferLoop d qs ((oneRequest d q s).countOne d) :=
  if_pos h

/-- A request that does not end OK ends the batch (R234). -/
theorem transferLoop_failed {d : DapCh} {q : XferReq} {s : State} (h : (oneRequest d q s).respValue d ≠ ackOk)
    (qs : List XferReq) : transferLoop d (q :: qs) s = oneRequest d q s :=
  if_neg h

/-- The loop counts some of its requests, and all of them if it ends OK (R231, R234). -/
theorem transferLoop_shape (d : DapCh) (reqs : List XferReq) (s : State) :
    ∃ (n : Nat) (ws : List Word), n ≤ reqs.length ∧
      ((transferLoop d reqs s).dap d).batch.respCount = (s.dap d).batch.respCount + n ∧
      ((transferLoop d reqs s).dap d).batch.out = (s.dap d).batch.out ++ ws.flatMap le32 ∧
      ((transferLoop d reqs s).respValue d = ackOk → n = reqs.length) := by
  induction reqs generalizing s with
  | nil => exact ⟨0, [], Nat.le_refl 0, rfl, (List.append_nil _).symm, fun _ => rfl⟩
  | cons q qs ih =>
    obtain ⟨hcount, ws, hws⟩ := AddsWords.oneRequest d q s
    by_cases hok : (oneRequest d q s).respValue d = ackOk
    · obtain ⟨n, vs, hn, hloop, hvs, hall⟩ := ih ((oneRequest d q s).countOne d)
      rw [transferLoop_ok hok]
      rw [countOne_respCount, hcount, Nat.add_assoc, Nat.add_comm 1] at hloop
      rw [countOne_out, hws] at hvs
      exact ⟨n + 1, ws ++ vs, Nat.succ_le_succ hn, hloop, by rw [hvs, List.flatMap_append, List.append_assoc],
        fun h => congrArg Nat.succ (hall h)⟩
    · rw [transferLoop_failed hok]
      exact ⟨0, ws, Nat.zero_le _, hcount, hws, fun h => absurd h hok⟩

/-- A finish that ends OK follows requests that ended OK (R235). -/
theorem respValue_of_transferFinish {d : DapCh} {s : State} (h : (transferFinish d s).respValue d = ackOk) :
    s.respValue d = ackOk := by
  by_contra hfail
  rw [transferFinish, if_pos hfail] at h
  exact hfail h

/-- The whole batch counts some of its requests, all of them if it ends OK, and answers whole words (R231, R234). -/
theorem transferBatch_shape (d : DapCh) (reqs : List XferReq) (s : State) :
    ∃ ws : List Word, ((transferBatch d reqs s).dap d).batch.respCount ≤ reqs.length ∧
      ((transferBatch d reqs s).dap d).batch.out = ws.flatMap le32 ∧
      ((transferBatch d reqs s).respValue d = ackOk →
        ((transferBatch d reqs s).dap d).batch.respCount = reqs.length) := by
  obtain ⟨n, ws, hn, hcount, hws, hall⟩ := transferLoop_shape d reqs (batchStart d s)
  obtain ⟨hsame, vs, hvs⟩ := AddsWords.transferFinish d (transferLoop d reqs (batchStart d s))
  have hinit : ((batchStart d s).dap d).batch = Batch.init := by rw [batchStart_dap]
  rw [hcount, hinit] at hsame
  rw [hws, hinit] at hvs
  have htotal : ((transferBatch d reqs s).dap d).batch.respCount = n := hsame.trans (Nat.zero_add n)
  refine ⟨ws ++ vs, htotal.trans_le hn, ?_, fun h => htotal.trans (hall (respValue_of_transferFinish h))⟩
  rw [List.flatMap_append]
  exact hvs

theorem flatMap_le32_length (ws : List Word) : (ws.flatMap le32).length = 4 * ws.length := by
  induction ws with
  | nil => rfl
  | cons w ws ih =>
    rw [List.flatMap_cons, List.length_append, ih, List.length_cons, Nat.mul_succ, Nat.add_comm]
    rfl

/-- A DAP_Transfer answers at most one word for each of its plain reads (R230). -/
theorem transferBatch_words_le {d : DapCh} {reqs : List XferReq} {s : State} {ws : List Word}
    (hout : ((transferBatch d reqs s).dap d).batch.out = ws.flatMap le32) :
    ws.length ≤ reqs.countP fun q => reqIsPlainRead q.req := by
  have hle := transferReply_length d reqs s
  simp only [transferReply, List.length_cons, hout, flatMap_le32_length] at hle
  omega

/-! ## The count and the words of a DAP_TransferBlock -/

/-- A block read counts one element for each word it answers, and all of them if it ends OK (R245, R250). -/
theorem blockRead_shape (d : DapCh) (r : Nibble) (n : Nat) (s : State) :
    ∃ ws : List Word, ws.length ≤ n ∧
      (blockRead d r n s).control d = { s.control d with count := (s.control d).count + ws.length } ∧
      ((blockRead d r n s).dap d).batch.out = (s.dap d).batch.out ++ ws.flatMap le32 ∧
      ((blockRead d r n s).respValue d = ackOk → ws.length = n) := by
  induction n generalizing s with
  | zero => exact ⟨[], Nat.le_refl 0, rfl, (List.append_nil _).symm, fun _ => rfl⟩
  | succ n ih =>
    have hcontrol := accessEmit_control d (if n = 0 ∧ r.getLsbD 0 = true then rdbuff else r) s
    have hcases := accessEmit_cases d (if n = 0 ∧ r.getLsbD 0 = true then rdbuff else r) s
    simp only [blockRead]
    generalize accessEmit d (if n = 0 ∧ r.getLsbD 0 = true then rdbuff else r) s = t at hcontrol hcases ⊢
    obtain ⟨hok, v, hv⟩ | ⟨hfail, hout⟩ := hcases
    · obtain ⟨ws, hle, hcount, hws, hall⟩ := ih (t.countOne d)
      rw [if_pos hok]
      refine ⟨v :: ws, Nat.succ_le_succ hle, ?_, ?_, fun h => congrArg Nat.succ (hall h)⟩
      · rw [hcount, countOne_control, hcontrol]
        simp only [List.length_cons, Nat.add_assoc, Nat.add_comm 1]
      · rw [hws, countOne_out, hv, List.flatMap_cons, List.append_assoc]
    · rw [if_neg hfail]
      exact ⟨[], Nat.zero_le _, hcontrol, by rw [hout, List.flatMap_nil, List.append_nil], fun h => absurd h hfail⟩

/-- A block write counts some of its words, and all of them if they end OK (R245, R250). -/
theorem blockWrite_shape (d : DapCh) (r : Nibble) (ws : List Word) (s : State) :
    ∃ n ≤ ws.length, (blockWrite d r ws s).control d = { s.control d with count := (s.control d).count + n } ∧
      ((blockWrite d r ws s).respValue d = ackOk → n = ws.length) := by
  induction ws generalizing s with
  | nil => exact ⟨0, Nat.le_refl 0, rfl, fun _ => rfl⟩
  | cons w ws ih =>
    have hcontrol := access_control d r w s
    simp only [blockWrite]
    generalize (access d r w s).2 = t at hcontrol ⊢
    split
    · obtain ⟨n, hle, hcount, hall⟩ := ih (t.countOne d)
      refine ⟨n + 1, Nat.succ_le_succ hle, ?_, fun h => congrArg Nat.succ (hall h)⟩
      rw [hcount, countOne_control, hcontrol]
      simp only [Nat.add_assoc, Nat.add_comm 1]
    · rename_i hfail
      exact ⟨0, Nat.zero_le _, hcontrol, fun h => absurd h hfail⟩

theorem batchStart_control (d : DapCh) (s : State) :
    (batchStart d s).control d = ⟨(s.dap d).matchMask, false, false, 0⟩ := by
  rw [State.control, batchStart_dap]
  rfl

theorem batchStart_respValue (d : DapCh) (s : State) : (batchStart d s).respValue d = 0 := by
  rw [State.respValue, batchStart_dap]
  rfl

theorem batchStart_out (d : DapCh) (s : State) : ((batchStart d s).dap d).batch.out = [] := by
  rw [batchStart_dap]
  rfl

/-- The operations of a block read: an AP read is posted first (R245). -/
theorem blockBatch_read {req : Byte} (hread : reqIsRead req = true) (d : DapCh) (m : Nat) (data : List Word)
    (s : State) : blockBatch d m req data s =
      if reqIsAp req then
        if (access d (reqNibble req) 0 (batchStart d s)).2.respValue d = ackOk then
          blockRead d (reqNibble req) m (access d (reqNibble req) 0 (batchStart d s)).2
        else (access d (reqNibble req) 0 (batchStart d s)).2
      else blockRead d (reqNibble req) m (batchStart d s) :=
  if_pos hread

/-- The operations of a block write: the last write is confirmed by RDBUFF (R245, R246). -/
theorem blockBatch_write {req : Byte} (hwrite : reqIsRead req = false) (d : DapCh) (m : Nat) (data : List Word)
    (s : State) : blockBatch d m req data s =
      if (blockWrite d (reqNibble req) data (batchStart d s)).respValue d = ackOk then
        (access d rdbuff 0 (blockWrite d (reqNibble req) data (batchStart d s))).2
      else blockWrite d (reqNibble req) data (batchStart d s) :=
  if_neg (Bool.eq_false_iff.mp hwrite)

/-- A read block counts one element for each word it answers (R245, R250). -/
theorem blockBatch_read_shape {req : Byte} (hread : reqIsRead req = true) (d : DapCh) (m : Nat) (data : List Word)
    (s : State) : ∃ ws : List Word, ws.length ≤ m ∧
      (blockBatch d m req data s).control d = ⟨(s.dap d).matchMask, false, false, ws.length⟩ ∧
      ((blockBatch d m req data s).dap d).batch.out = ws.flatMap le32 ∧
      ((blockBatch d m req data s).respValue d = ackOk → ws.length = m) := by
  have hfrom (t : State) (hcontrol : t.control d = (batchStart d s).control d)
      (hout : (t.dap d).batch.out = ((batchStart d s).dap d).batch.out) := by
    have hshape := blockRead_shape d (reqNibble req) m t
    rw [hcontrol, hout, batchStart_control, batchStart_out] at hshape
    simpa only [Nat.zero_add, List.nil_append] using hshape
  rw [blockBatch_read hread]
  split
  · split
    · exact hfrom _ (access_control ..) (access_out ..)
    · rename_i hfail
      exact ⟨[], Nat.zero_le _, (access_control ..).trans (batchStart_control d s),
        (access_out ..).trans (batchStart_out d s), fun h => absurd h hfail⟩
  · exact hfrom _ rfl rfl

/-- A write block counts its words and answers none (R245, R246, R250). -/
theorem blockBatch_write_shape {req : Byte} (hwrite : reqIsRead req = false) (d : DapCh) (m : Nat) (data : List Word)
    (s : State) : ∃ n ≤ data.length,
      (blockBatch d m req data s).control d = ⟨(s.dap d).matchMask, false, false, n⟩ ∧
      ((blockBatch d m req data s).dap d).batch.out = [] ∧
      ((blockBatch d m req data s).respValue d = ackOk → n = data.length) := by
  obtain ⟨n, hle, hcontrol, hall⟩ := blockWrite_shape d (reqNibble req) data (batchStart d s)
  have hout := (blockWrite_out d (reqNibble req) data (batchStart d s)).trans (batchStart_out d s)
  rw [batchStart_control, Nat.zero_add] at hcontrol
  rw [blockBatch_write hwrite]
  split
  · rename_i hok
    exact ⟨n, hle, (access_control ..).trans hcontrol, (access_out ..).trans hout, fun _ => hall hok⟩
  · exact ⟨n, hle, hcontrol, hout, hall⟩

/-- A block of `m` elements counts some of them, all of them if it ends OK, and a read block answers one word for each
(R245, R250). -/
theorem blockBatch_shape {d : DapCh} {m : Nat} {req : Byte} {data : List Word} (s : State)
    (hdata : reqIsRead req = false → data.length = m) :
    ∃ (n : Nat) (ws : List Word), n ≤ m ∧ (ws.length = if reqIsRead req then n else 0) ∧
      (blockBatch d m req data s).control d = ⟨(s.dap d).matchMask, false, false, n⟩ ∧
      ((blockBatch d m req data s).dap d).batch.out = ws.flatMap le32 ∧
      ((blockBatch d m req data s).respValue d = ackOk → n = m) := by
  by_cases hread : reqIsRead req = true
  · obtain ⟨ws, hle, hcontrol, hout, hall⟩ := blockBatch_read_shape hread d m data s
    exact ⟨ws.length, ws, hle, (if_pos hread).symm, hcontrol, hout, hall⟩
  · have hwrite := Bool.eq_false_of_not_eq_true hread
    obtain ⟨n, hle, hcontrol, hout, hall⟩ := blockBatch_write_shape hwrite d m data s
    rw [hdata hwrite] at hle hall
    exact ⟨n, [], hle, (if_neg hread).symm, hcontrol, hout, hall⟩

/-! ## What a batch leaves -/

/-- `t` is `s` but for what a batch of `d` writes: the shared pins and the divider, the log, the draws, and MATCH_MASK,
XFER_FSM, DAP_STATE and the batch registers of `d`. -/
def SameButBatch (d : DapCh) (s t : State) : Prop :=
  t = { s with
      pinMode := t.pinMode, activeDiv := t.activeDiv, sck := t.sck, sdo := t.sdo, swdioOe := t.swdioOe
      log := t.log, draws := t.draws }.setDap d
    { s.dap d with
      matchMask := (t.dap d).matchMask, xferFsm := (t.dap d).xferFsm, dapState := (t.dap d).dapState
      batch := (t.dap d).batch }

theorem SameButBatch.refl (d : DapCh) (s : State) : SameButBatch d s s := by
  cases d <;> rfl

theorem SameButBatch.trans {d : DapCh} {s t u : State} (h : SameButBatch d s t) (k : SameButBatch d t u) :
    SameButBatch d s u := by
  unfold SameButBatch at *
  cases d <;> (rw [k]; rw [h]; rfl)

theorem SameButWire.sameButBatch {s t : State} (h : SameButWire s t) (d : DapCh) : SameButBatch d s t := by
  unfold SameButWire at h
  unfold SameButBatch
  cases d <;> (rw [h]; rfl)

theorem BatchStep.sameButBatch {d : DapCh} {s t : State} (h : BatchStep d s t) : SameButBatch d s t := by
  cases h with
  | packet r w => exact (swdXfer_wire d r w s).sameButBatch d
  | setFsm x => cases d <;> rfl
  | setBatch b => cases d <;> rfl
  | setMask w => cases d <;> rfl

theorem BatchRun.sameButBatch {d : DapCh} {s t : State} (h : BatchRun d s t) : SameButBatch d s t := by
  induction h with
  | refl => exact .refl d s
  | tail _ hstep ih => exact ih.trans hstep.sameButBatch

theorem busStart_sameButBatch (d : DapCh) (s : State) : SameButBatch d s (s.busStart d) := by
  unfold SameButBatch
  rw [State.busStart_eq]
  cases d <;> rfl

theorem batchStart_sameButBatch (d : DapCh) (s : State) : SameButBatch d s (batchStart d s) := by
  refine (busStart_sameButBatch d s).trans ?_
  cases d <;> rfl

/-- No step of a batch leaves DAP_STATE (R240). -/
theorem BatchStep.dapState {d : DapCh} {s t : State} (h : BatchStep d s t) :
    (t.dap d).dapState = (s.dap d).dapState := by
  cases h with
  | packet r w => rw [(swdXfer_wire d r w s).dap]
  | setFsm x => cases d <;> rfl
  | setBatch b => cases d <;> rfl
  | setMask w => cases d <;> rfl

/-- DAP_STATE is TransferInProgress for the whole batch (R240). -/
theorem BatchRun.inProgress {d : DapCh} {s t : State} (h : BatchRun d (batchStart d s) t) :
    (t.dap d).dapState = .transferInProgress := by
  induction h with
  | refl => rw [batchStart_dap]
  | tail _ hstep ih => exact hstep.dapState.trans ih

/-- The command answers from what its batch leaves. -/
theorem SameButBatch.respond {d : DapCh} {s t : State} (h : SameButBatch d s t) (resp : Option Frame)
    (release : Bool) : SameButTransfer d s (t.respond d.chan resp release) := by
  unfold SameButBatch at h
  unfold SameButTransfer
  cases d <;> (rw [h]; rfl)

/-- DAP_TransferBlock of at least one element on a connected channel that can lease runs its block and answers what it
built (R245). -/
theorem execDapTransferBlock_connected {s : State} {d : DapCh} {count : Half} (idx req : Byte) (data : List Word)
    (hcan : s.CanLease d.chan) (hconn : (s.dap d).dapState ≠ .disconnected) (hcount : count ≠ 0) :
    exec (.dapTransferBlock d idx count req data) s = .next
      ((blockBatch d count.toNat req data (s.leased d.chan)).respond d.chan
        (some (blockReply d (blockBatch d count.toNat req data (s.leased d.chan)))) true) := by
  simp only [exec, execDapTransferBlock, hcan.leasedCommand, if_pos (And.intro (State.leased_connected hconn) hcount)]
  rfl

/-- A DAP_Transfer of any requests answers a response of the shape of R231. -/
theorem execDapTransfer_completes {s : State} {d : DapCh} (idx : Byte) (reqs : List XferReq) (hcan : s.CanLease d.chan)
    (hconn : (s.dap d).dapState ≠ .disconnected) :
    ∃ (t : State) (n : Nat) (value : Byte) (words : List Word),
      exec (.dapTransfer d idx reqs) s = .next t ∧
      t.response d.chan = some (0x05 :: BitVec.ofNat 8 n :: value :: words.flatMap le32) ∧
      n ≤ reqs.length ∧ words.length ≤ (reqs.countP fun q => q.req.getLsbD 1 && !q.req.getLsbD 4) ∧
      (value = 0x01 → n = reqs.length) ∧
      (reqs = [] → value = 0x00 ∧ t.log = ((s.leased d.chan).busStart d).log ∧ t.draws = s.draws) ∧
      SameButTransfer d (s.leased d.chan) t ∧ (t.dap d).dapState = .transferInProgress ∧
      ∃ newer, t.log = newer ++ (s.leased d.chan).log := by
  have hrun := BatchRun.transferBatch d reqs (s.leased d.chan)
  obtain ⟨⟨newer, hlog⟩, -⟩ := transferBatch_grows d reqs (s.leased d.chan)
  obtain ⟨ws, hle, hout, hall⟩ := transferBatch_shape d reqs (s.leased d.chan)
  refine ⟨_, ((transferBatch d reqs (s.leased d.chan)).dap d).batch.respCount,
    (transferBatch d reqs (s.leased d.chan)).respValue d, ws, execDapTransfer_connected idx reqs hcan hconn, ?_, hle,
    transferBatch_words_le hout, hall, ?_, ((batchStart_sameButBatch ..).trans hrun.sameButBatch).respond .., ?_, newer,
    ?_⟩
  · rw [State.respond_response, transferReply, hout]
  · rintro rfl
    have hnone : transferBatch d [] (s.leased d.chan) = batchStart d (s.leased d.chan) :=
      if_pos (by rw [transferLoop, batchStart_respValue]; decide)
    rw [hnone, State.respond_log, State.respond_draws, batchStart_log, batchStart_draws, State.leased_draws]
    exact ⟨batchStart_respValue .., rfl, rfl⟩
  · rw [State.respond_dap, hrun.inProgress]
  · rw [State.respond_log, ← hlog]

/-- A DAP_TransferBlock of at least one element answers a response of the shape of R245. -/
theorem execDapTransferBlock_completes {s : State} {d : DapCh} {count : Half} {req : Byte} {data : List Word}
    (idx : Byte) (hcan : s.CanLease d.chan) (hconn : (s.dap d).dapState ≠ .disconnected) (hcount : count ≠ 0)
    (hdata : reqIsRead req = false → data.length = count.toNat) :
    ∃ (t : State) (n : Nat) (value : Byte) (words : List Word),
      exec (.dapTransferBlock d idx count req data) s = .next t ∧
      t.response d.chan = some (0x06 :: le16 (BitVec.ofNat 16 n) ++ value :: words.flatMap le32) ∧
      n ≤ count.toNat ∧ (words.length = if reqIsRead req then n else 0) ∧ (value = 0x01 → n = count.toNat) ∧
      SameButTransfer d (s.leased d.chan) t ∧ (t.dap d).dapState = .transferInProgress ∧
      (t.dap d).matchMask = (s.dap d).matchMask ∧ ∃ newer, t.log = newer ++ (s.leased d.chan).log := by
  have hrun := BatchRun.blockBatch d count.toNat req data (s.leased d.chan)
  obtain ⟨⟨newer, hlog⟩, -⟩ := blockBatch_grows d count.toNat req data (s.leased d.chan)
  obtain ⟨n, ws, hle, hwords, hcontrol, hout, hall⟩ := blockBatch_shape (d := d) (s.leased d.chan) hdata
  have hcounted : ((blockBatch d count.toNat req data (s.leased d.chan)).dap d).batch.respCount = n :=
    congrArg BatchControl.count hcontrol
  have hmask : ((blockBatch d count.toNat req data (s.leased d.chan)).dap d).matchMask = _ :=
    congrArg BatchControl.mask hcontrol
  refine ⟨_, n, (blockBatch d count.toNat req data (s.leased d.chan)).respValue d, ws,
    execDapTransferBlock_connected idx req data hcan hconn hcount, ?_, hle, hwords, hall,
    ((batchStart_sameButBatch ..).trans hrun.sameButBatch).respond .., ?_, ?_, newer, ?_⟩
  · rw [State.respond_response, blockReply, hcounted, hout]
  · rw [State.respond_dap, hrun.inProgress]
  · rw [State.respond_dap, hmask, State.leased_dap]
  · rw [State.respond_log, ← hlog]

/-- Settles O51: both commands, by the shape of their batches. -/
theorem transfersComplete : Obligations.TransfersComplete :=
  fun _ _ idx hcan hconn => ⟨fun reqs _ => execDapTransfer_completes idx reqs hcan hconn,
    fun _ _ _ hcount hdata => execDapTransferBlock_completes idx hcan hconn hcount hdata⟩

/-! ## The request that ends a batch -/

/-- Requests that were all completed leave the rest of the batch to run from there (R231). -/
theorem transferLoop_append {d : DapCh} {before : List XferReq} {s : State}
    (hok : before = [] ∨ (transferLoop d before s).respValue d = ackOk) (qs : List XferReq) :
    transferLoop d (before ++ qs) s = transferLoop d qs (transferLoop d before s) ∧
      ((transferLoop d before s).dap d).batch.respCount = (s.dap d).batch.respCount + before.length := by
  induction before generalizing s with
  | nil => exact ⟨rfl, rfl⟩
  | cons q before ih =>
    have hend := hok.resolve_left (List.cons_ne_nil q before)
    by_cases hq : (oneRequest d q s).respValue d = ackOk
    · rw [transferLoop_ok hq] at hend ⊢
      obtain ⟨hrest, hcount⟩ := ih (.inr hend)
      obtain ⟨hsame, -⟩ := AddsWords.oneRequest d q s
      rw [countOne_respCount, hsame] at hcount
      exact ⟨(transferLoop_ok hq _).trans hrest, by rw [hcount, List.length_cons, Nat.add_assoc, Nat.add_comm 1]⟩
    · rw [transferLoop_failed hq] at hend
      exact absurd hend hq

/-- The batch is over with the request that does not end OK, whatever follows it (R234). -/
theorem transferBatch_failed {d : DapCh} {before : List XferReq} {q : XferReq} {s : State}
    (hok : before = [] ∨ (transferLoop d before (batchStart d s)).respValue d = ackOk)
    (hfail : (oneRequest d q (transferLoop d before (batchStart d s))).respValue d ≠ ackOk) (after : List XferReq) :
    transferBatch d (before ++ q :: after) s = oneRequest d q (transferLoop d before (batchStart d s)) := by
  rw [transferBatch, (transferLoop_append hok _).1, transferLoop_failed hfail, transferFinish, if_pos hfail]

/-- Settles O57: both batches end in the state after `q`, which counts the requests before it. -/
theorem failureEndsBatch : Obligations.FailureEndsBatch := by
  intro s d idx before after q hcan hconn u x hok hfail
  have hbatch (qs : List XferReq) : transferBatch d (before ++ q :: qs) (s.leased d.chan) = x :=
    transferBatch_failed hok hfail qs
  have hexec (qs : List XferReq) : exec (.dapTransfer d idx (before ++ q :: qs)) s =
      .next (x.respond d.chan (some (transferReply d x)) true) := by
    rw [execDapTransfer_connected idx _ hcan hconn, hbatch]
  have hcount : (x.dap d).batch.respCount = before.length := by
    rw [(AddsWords.oneRequest d q u).1, (transferLoop_append hok []).2, batchStart_dap]
    exact Nat.zero_add _
  refine ⟨(hexec after).trans (hexec []).symm, _, (x.dap d).batch.out, hexec after, ?_, ?_, ?_, ?_⟩
  · rw [State.respond_log]
  · rw [State.respond_draws]
  · rw [State.respond_dap]
  · rw [State.respond_response, transferReply, hcount]

end Sys2Proof.Machine
end

section
/-! SUPPORT. Batches of one request: a DP read with its retries, a match-mask write and a value-match read (R203, R231,
R236, R237, R275). -/

namespace Sys2Proof.Machine

/-! ## Accesses whose words are not answered -/

theorem AccessRun.emitWord {d : DapCh} {s t : State} {ks : List EventKind} {bs : List Bool}
    (h : AccessRun d s t ks bs) (v : Word) : AccessRun d s (t.emitWord d v) ks bs := h.setBatch _

/-- From `s` to `t` accesses of `d` put the events `ks` on the wire and sample `bs`; the batch answers no word, and the
registers that its plan goes by stay. -/
structure QuietRun (d : DapCh) (s t : State) (ks : List EventKind) (bs : List Bool) : Prop
    extends AccessRun d s t ks bs where
  control : t.control d = s.control d
  out : (t.dap d).batch.out = (s.dap d).batch.out

namespace QuietRun

variable {d : DapCh} {s t u : State} {ks ls : List EventKind} {bs cs : List Bool}

theorem trans (h : QuietRun d s t ks bs) (k : QuietRun d t u ls cs) : QuietRun d s u (ks ++ ls) (bs ++ cs) :=
  ⟨h.toAccessRun.trans k.toAccessRun, k.control.trans h.control, k.out.trans h.out⟩

theorem setRespValue (h : QuietRun d s t ks bs) (v : Byte) : QuietRun d s (t.setRespValue d v) ks bs where
  toAccessRun := h.toAccessRun.setBatch _
  control := by
    rw [← h.control]
    simp [State.control, State.setRespValue]
  out := by
    rw [← h.out]
    simp [State.setRespValue]

/-- The match loop and its start write MATCH_LEFT (R237). -/
theorem setMatchLeft (h : QuietRun d s t ks bs) (n : Nat) :
    QuietRun d s (t.setBatch d { (t.dap d).batch with matchLeft := n }) ks bs where
  toAccessRun := h.toAccessRun.setBatch _
  control := by
    rw [← h.control]
    simp [State.control]
  out := by
    rw [← h.out]
    simp

theorem matchMask (h : QuietRun d s t ks bs) : (t.dap d).matchMask = (s.dap d).matchMask :=
  congrArg BatchControl.mask h.control

end QuietRun

section

variable {d : DapCh} {r : Nibble} {w v : Word} {s : State} {rest : List Bool}

theorem QuietRun.refl (d : DapCh) (s : State) : QuietRun d s s [] [] := ⟨.refl d s, rfl, rfl⟩

/-- An access makes what its transfer with retries makes, and keeps its result (R203). -/
theorem access_of_retry {ks : List EventKind} {bs : List Bool} {res : SwdResp} (hres : (swdXferRetry d r w s).1 = res)
    (hrun : AccessRun d s (swdXferRetry d r w s).2 ks bs) :
    QuietRun d s (access d r w s).2 ks bs ∧ (access d r w s).1 = res.rdata ∧
      (access d r w s).2.respValue d = res.ack ∧
      ((access d r w s).2.dap d).xferFsm = if res.ack = ackOk then .idle else .faulted := by
  refine ⟨⟨hrun.setBatch _, access_control .., access_out ..⟩, congrArg SwdResp.rdata hres, ?_, ?_⟩
  · rw [← hres]
    simp [access, State.respValue]
  · rw [← hres, ← swdXferRetry_fsm]
    simp [access]

/-- A read that is answered OK with good parity, after WAITs within its budget (R203, R207). -/
theorem access_okRead {n : Nat} (hread : r.getLsbD 1 = true) (hn : n ≤ (s.dap d).retryCount.toNat)
    (hdraws : s.draws.swdio = (List.replicate n waitBits).flatten ++ okRead v ++ rest) :
    QuietRun d s (access d r w s).2
        ((List.replicate n (packetEvents (s.dap d) r w waitBits)).flatten ++ packetEvents (s.dap d) r w (okRead v))
        ((List.replicate n waitBits).flatten ++ okRead v) ∧
      (access d r w s).1 = v ∧ (access d r w s).2.respValue d = ackOk := by
  obtain ⟨hbits, hresult⟩ := okRead_bits hread v
  obtain ⟨hanswer, hrun, -⟩ := swdXferRetry_answered (w := w) hn hbits (by rw [okRead_ack]; decide) hdraws
  obtain ⟨hquiet, hword, hvalue, -⟩ := access_of_retry (hanswer.trans hresult) hrun
  exact ⟨hquiet, hword, hvalue⟩

/-- An access that is answered WAIT on every attempt of its budget (R203, R207). -/
theorem access_exhausted
    (hdraws : s.draws.swdio = (List.replicate ((s.dap d).retryCount.toNat + 1) waitBits).flatten ++ rest) :
    QuietRun d s (access d r w s).2
        (List.replicate ((s.dap d).retryCount.toNat + 1) (packetEvents (s.dap d) r w waitBits)).flatten
        (List.replicate ((s.dap d).retryCount.toNat + 1) waitBits).flatten ∧
      (access d r w s).2.respValue d = ackWait := by
  obtain ⟨hanswer, hrun⟩ := swdXferRetry_exhausted (r := r) (w := w) hdraws
  obtain ⟨hquiet, -, hvalue, -⟩ := access_of_retry hanswer hrun
  exact ⟨hquiet, hvalue⟩

/-- An access whose word goes into the response, once it ends OK (R231). -/
theorem accessEmit_ok (hok : (access d r 0 s).2.respValue d = ackOk) :
    accessEmit d r s = (access d r 0 s).2.emitWord d (access d r 0 s).1 := if_pos hok

theorem accessEmit_failed (hfail : (access d r 0 s).2.respValue d ≠ ackOk) :
    accessEmit d r s = (access d r 0 s).2 := if_neg hfail

/-! ## Batches of one request -/

theorem batchStart_packetEvents (d : DapCh) (s : State) :
    packetEvents ((batchStart d s).dap d) = packetEvents (s.dap d) := by
  rw [batchStart_dap]
  rfl

theorem batchStart_retryCount (d : DapCh) (s : State) :
    ((batchStart d s).dap d).retryCount = (s.dap d).retryCount := by
  rw [batchStart_dap]

theorem transferReply_eq {value : Byte} {out : List Byte} {c : BatchControl} (hcontrol : s.control d = c)
    (hvalue : s.respValue d = value) (hout : (s.dap d).batch.out = out) :
    transferReply d s = 0x05 :: BitVec.ofNat 8 c.count :: value :: out := by
  rw [transferReply, ← hcontrol, hvalue, hout]
  rfl

/-- A batch of one request that ends OK, and leaves nothing to collect or to confirm (R231, R235). -/
theorem transferBatch_single_ok {q : XferReq} (hok : (oneRequest d q (batchStart d s)).respValue d = ackOk)
    (hpost : ((oneRequest d q (batchStart d s)).control d).post = false)
    (hcheck : ((oneRequest d q (batchStart d s)).control d).check = false) :
    transferBatch d [q] s = (oneRequest d q (batchStart d s)).countOne d := by
  have hloop : transferLoop d [q] (batchStart d s) = (oneRequest d q (batchStart d s)).countOne d :=
    transferLoop_ok hok []
  have hdone : ((oneRequest d q (batchStart d s)).countOne d).respValue d = ackOk := by rw [countOne_respValue, hok]
  rw [transferBatch, hloop, transferFinish_ok hdone]
  simp [hpost, hcheck]

/-- A batch of one request that does not end OK (R234). -/
theorem transferBatch_single_failed {q : XferReq} (hfail : (oneRequest d q (batchStart d s)).respValue d ≠ ackOk) :
    transferBatch d [q] s = oneRequest d q (batchStart d s) :=
  transferBatch_failed (before := []) (.inl rfl) hfail []

/-- A batch of one read, which leads to `t` before it takes back CHECK_WRITE, and has posted nothing (R231). -/
theorem transferBatch_single_read {q : XferReq} {t : State} {ks : List EventKind} {bs : List Bool}
    (hone : oneRequest d q (batchStart d s) = if t.respValue d = ackOk then t.setCheckWrite d false else t)
    (hrun : AccessRun d (batchStart d s) t ks bs) (hcontrol : t.control d = (batchStart d s).control d) :
    AccessRun d (batchStart d s) (transferBatch d [q] s) ks bs ∧
      transferReply d (transferBatch d [q] s) =
        0x05 :: (if t.respValue d = ackOk then 0x01 else 0x00) :: t.respValue d :: (t.dap d).batch.out := by
  rw [batchStart_control] at hcontrol
  split at hone
  · rename_i hok
    have hend : (t.setCheckWrite d false).control d = ⟨(s.dap d).matchMask, false, false, 0⟩ := by
      rw [setCheckWrite_control, hcontrol]
    have hvalue : (t.setCheckWrite d false).respValue d = t.respValue d := by
      simp [State.respValue, State.setCheckWrite]
    have hout : ((t.setCheckWrite d false).dap d).batch.out = (t.dap d).batch.out := by simp [State.setCheckWrite]
    rw [transferBatch_single_ok (by rw [hone, hvalue, hok]) (by rw [hone, hend]) (by rw [hone, hend]), hone, if_pos hok]
    exact ⟨(hrun.setCheckWrite false).countOne, transferReply_eq ((countOne_control ..).trans (by rw [hend]))
      ((countOne_respValue ..).trans hvalue) ((countOne_out ..).trans hout)⟩
  · rename_i hfail
    rw [transferBatch_single_failed (hone ▸ hfail), hone, if_neg hfail]
    exact ⟨hrun, transferReply_eq hcontrol rfl rfl⟩

end

/-- A DAP_Transfer whose batch makes the events `ks` on the wire and builds the response `f` (R231). -/
theorem execDapTransfer_run {s : State} {d : DapCh} {reqs : List XferReq} {ks : List EventKind} {bs rest : List Bool}
    {f : Frame} (idx : Byte) (hcan : s.CanLease d.chan) (hconn : (s.dap d).dapState ≠ .disconnected)
    (hrun : AccessRun d (batchStart d (s.leased d.chan)) (transferBatch d reqs (s.leased d.chan)) ks bs)
    (hreply : transferReply d (transferBatch d reqs (s.leased d.chan)) = f) (hdraws : s.draws.swdio = bs ++ rest) :
    ∃ t, exec (.dapTransfer d idx reqs) s = .next t ∧ t.response d.chan = some f ∧ t.draws.swdio = rest ∧
      t.log = gains (some d.chan) ks ((s.leased d.chan).busStart d).log := by
  refine ⟨_, execDapTransfer_connected idx reqs hcan hconn, ?_, ?_, ?_⟩
  · rw [State.respond_response, hreply]
  · rw [State.respond_draws]
    exact hrun.left (by rw [batchStart_draws, State.leased_draws, hdraws])
  · rw [State.respond_log, hrun.log, batchStart_owner, batchStart_log, hcan.leased_owner]

/-! ## One DP read -/

/-- A plain DP read (R233). -/
structure ReadsDp (q : XferReq) : Prop where
  read : reqIsRead q.req = true
  plain : reqIsMatch q.req = false
  dp : reqIsAp q.req = false

section

variable {d : DapCh} {q : XferReq} {v : Word} {s : State} {rest : List Bool}

/-- A plain DP read with nothing to collect is one access (R231, R233). -/
theorem oneRequest_dpRead (hq : ReadsDp q) (hpost : (s.control d).post = false) :
    oneRequest d q s =
      if (accessEmit d (reqNibble q.req) s).respValue d = ackOk then
        (accessEmit d (reqNibble q.req) s).setCheckWrite d false
      else accessEmit d (reqNibble q.req) s := by
  have hunposted : (s.dap d).batch.postRead = false := hpost
  simp [oneRequest, hunposted, requestBody, hq.read, hq.plain, plainRead, hq.dp]

/-- A batch of one DP read that is answered within the retry budget (R275). -/
theorem transferBatch_dpRead_answered {n : Nat} (hq : ReadsDp q) (hn : n ≤ (s.dap d).retryCount.toNat)
    (hdraws : s.draws.swdio = (List.replicate n waitBits).flatten ++ okRead v ++ rest) :
    AccessRun d (batchStart d s) (transferBatch d [q] s)
        ((List.replicate n (packetEvents (s.dap d) (reqNibble q.req) 0 waitBits)).flatten ++
          packetEvents (s.dap d) (reqNibble q.req) 0 (okRead v))
        ((List.replicate n waitBits).flatten ++ okRead v) ∧
      transferReply d (transferBatch d [q] s) = [0x05, 0x01, 0x01] ++ le32 v := by
  obtain ⟨hquiet, hword, hok⟩ := access_okRead (d := d) (s := batchStart d s) (w := 0) (n := n)
    ((reqNibble_rnw q.req).trans hq.read) (by rwa [batchStart_retryCount]) (by rw [batchStart_draws, hdraws])
  have hemit := accessEmit_ok hok
  rw [hword] at hemit
  have hvalue : (accessEmit d (reqNibble q.req) (batchStart d s)).respValue d = ackOk := by
    rw [hemit, emitWord_respValue, hok]
  have hout : ((accessEmit d (reqNibble q.req) (batchStart d s)).dap d).batch.out = le32 v := by
    rw [hemit]
    simp [State.emitWord, batchStart_out]
  have hrun := hquiet.toAccessRun.emitWord v
  rw [← hemit] at hrun
  obtain ⟨hbatch, hreply⟩ := transferBatch_single_read
    (oneRequest_dpRead hq (by rw [batchStart_control])) hrun (accessEmit_control ..)
  rw [hvalue, hout] at hreply
  rw [batchStart_packetEvents] at hbatch
  exact ⟨hbatch, hreply⟩

/-- A batch of one DP read that is answered WAIT on every attempt of the budget (R275). -/
theorem transferBatch_dpRead_exhausted (hq : ReadsDp q)
    (hdraws : s.draws.swdio = (List.replicate ((s.dap d).retryCount.toNat + 1) waitBits).flatten ++ rest) :
    AccessRun d (batchStart d s) (transferBatch d [q] s)
        (List.replicate ((s.dap d).retryCount.toNat + 1)
          (packetEvents (s.dap d) (reqNibble q.req) 0 waitBits)).flatten
        (List.replicate ((s.dap d).retryCount.toNat + 1) waitBits).flatten ∧
      transferReply d (transferBatch d [q] s) = [0x05, 0x00, 0x02] := by
  obtain ⟨hquiet, hwait⟩ := access_exhausted (d := d) (s := batchStart d s) (r := reqNibble q.req) (w := 0)
    (by rw [batchStart_draws, batchStart_retryCount, hdraws])
  have hemit : accessEmit d (reqNibble q.req) (batchStart d s) = (access d (reqNibble q.req) 0 (batchStart d s)).2 :=
    accessEmit_failed (by rw [hwait]; decide)
  have hone := oneRequest_dpRead (d := d) (s := batchStart d s) hq (by rw [batchStart_control])
  rw [hemit] at hone
  obtain ⟨hbatch, hreply⟩ := transferBatch_single_read hone hquiet.toAccessRun hquiet.control
  rw [hwait, hquiet.out, batchStart_out] at hreply
  rw [batchStart_packetEvents, batchStart_retryCount] at hbatch
  exact ⟨hbatch, hreply⟩

end

/-- The request byte of a DP read, whatever its ignored bits (R93). -/
theorem dpReadRequest_byte : ∀ (high : BitVec 3) (a : BitVec 2),
    let req : Byte := high ++ 0#1 ++ swdNibble false true a
    ReadsDp ⟨req, none⟩ ∧ reqNibble req = swdNibble false true a := by
  have hbyte : ∀ (high : BitVec 3) (a : BitVec 2),
      let req : Byte := high ++ 0#1 ++ swdNibble false true a
      (reqIsRead req = true ∧ reqIsMatch req = false ∧ reqIsAp req = false) ∧
        reqNibble req = swdNibble false true a := by decide
  intro high a
  obtain ⟨⟨hread, hplain, hdp⟩, hnibble⟩ := hbyte high a
  exact ⟨⟨hread, hplain, hdp⟩, hnibble⟩

/-- Settles O53: the one access is answered within its budget, or waited out. -/
theorem readRetryBudget : Obligations.ReadRetryBudget := by
  intro s d idx high a v n rest hcan hconn hdraws budget r wire u
  obtain ⟨hq, hnibble⟩ := dpReadRequest_byte high a
  by_cases hn : n ≤ budget
  · obtain ⟨hrun, hreply⟩ := transferBatch_dpRead_answered (d := d) (s := s.leased d.chan) (v := v) (n := n) hq
      (by rwa [State.leased_dap]) (by rw [State.leased_draws, hdraws])
    obtain ⟨t, hexec, hresp, hrest, hlog⟩ := execDapTransfer_run idx hcan hconn hrun hreply hdraws
    rw [hnibble, State.leased_dap] at hlog
    exact ⟨t, hexec, fun _ => ⟨hresp, hrest, hlog⟩, fun h => absurd hn (Nat.not_le_of_gt h)⟩
  · have hmore : budget + 1 ≤ n := Nat.lt_of_not_le hn
    have hsplit : s.draws.swdio = (List.replicate (budget + 1) waitBits).flatten ++
        ((List.replicate (n - (budget + 1)) waitBits).flatten ++ (okRead v ++ rest)) := by
      rw [← List.append_assoc, ← List.flatten_append, ← List.replicate_add, Nat.add_sub_cancel' hmore, hdraws,
        List.append_assoc]
    obtain ⟨hrun, hreply⟩ := transferBatch_dpRead_exhausted (d := d) (s := s.leased d.chan) hq
      (by rw [State.leased_draws, State.leased_dap]; exact hsplit)
    rw [State.leased_dap] at hrun
    obtain ⟨t, hexec, hresp, -, hlog⟩ := execDapTransfer_run idx hcan hconn hrun hreply hsplit
    rw [hnibble] at hlog
    exact ⟨t, hexec, fun h => absurd h hn, fun _ => ⟨hresp, hlog⟩⟩

/-! ## A match-mask write -/

/-- A batch of one match-mask write is the write, counted (R236). -/
theorem transferBatch_maskWrite {d : DapCh} {req : Byte} (hwrite : reqIsRead req = false)
    (hmask : reqIsMask req = true) (w : Word) (s : State) :
    transferBatch d [⟨req, some w⟩] s = (maskWrite d w (batchStart d s)).countOne d := by
  have hcontrol := batchStart_control d s
  have hunposted : ((batchStart d s).dap d).batch.postRead = false := congrArg BatchControl.post hcontrol
  have hone : oneRequest d ⟨req, some w⟩ (batchStart d s) = maskWrite d w (batchStart d s) := by
    simp [oneRequest, hunposted, requestBody, hwrite, hmask, reqWord]
  have hafter : (maskWrite d w (batchStart d s)).control d = { (batchStart d s).control d with mask := w } := by
    simp [maskWrite, State.control, State.setRespValue]
  rw [← hone]
  refine transferBatch_single_ok ?_ ?_ ?_
  · rw [hone]
    simp [maskWrite, State.respValue, State.setRespValue]
  · rw [hone, hafter, hcontrol]
  · rw [hone, hafter, hcontrol]

/-- DAP_Transfer of one match-mask write (R236). -/
theorem execDapTransfer_maskWrite {s : State} {d : DapCh} {req : Byte} (idx : Byte) (hcan : s.CanLease d.chan)
    (hconn : (s.dap d).dapState ≠ .disconnected) (w : Word) (hwrite : reqIsRead req = false)
    (hmask : reqIsMask req = true) :
    ∃ t, exec (.dapTransfer d idx [⟨req, some w⟩]) s = .next t ∧
      t.response d.chan = some [0x05, 0x01, 0x01] ∧ (t.dap d).matchMask = w ∧
      t.log = ((s.leased d.chan).busStart d).log ∧ t.draws = s.draws := by
  have hbatch := transferBatch_maskWrite (d := d) hwrite hmask w (s.leased d.chan)
  have hregs : (transferBatch d [⟨req, some w⟩] (s.leased d.chan)).dap d =
      { (batchStart d (s.leased d.chan)).dap d with
        matchMask := w, batch := { Batch.init with respValue := ackOk, respCount := 1 } } := by
    rw [hbatch]
    simp [maskWrite, State.setRespValue, State.countOne, batchStart_dap]
    rfl
  refine ⟨_, execDapTransfer_connected idx _ hcan hconn, ?_, ?_, ?_, ?_⟩
  · rw [State.respond_response, transferReply, State.respValue, hregs]
    rfl
  · rw [State.respond_dap, hregs]
  · rw [State.respond_log, hbatch, ← batchStart_log]
    simp [maskWrite, State.setRespValue, State.countOne]
  · rw [State.respond_draws, hbatch, ← State.leased_draws s d.chan, ← batchStart_draws d]
    simp [maskWrite, State.setRespValue, State.countOne]

/-! ## A value-match read -/

section

variable {d : DapCh} {r : Nibble} {m : Word} {s : State} {rest : List Bool}

/-- A read of the match loop that is answered OK with good parity, and what its word is compared as (R237). -/
theorem access_matchRead {v mask : Word} (hread : r.getLsbD 1 = true) (hmask : (s.dap d).matchMask = mask)
    (hdraws : s.draws.swdio = okRead v ++ rest) :
    QuietRun d s (access d r 0 s).2 (packetEvents (s.dap d) r 0 (okRead v)) (okRead v) ∧
      (access d r 0 s).2.respValue d = ackOk ∧
      (access d r 0 s).1 &&& ((access d r 0 s).2.dap d).matchMask = v &&& mask := by
  obtain ⟨hquiet, hword, hok⟩ := access_okRead (w := 0) (n := 0) hread (Nat.zero_le _) hdraws
  exact ⟨hquiet, hok, by rw [hword, hquiet.matchMask, hmask]⟩

/-- The match loop goes on after a word that does not match while reads are left (R237). -/
theorem matchLoop_next {n : Nat} (hok : (access d r 0 s).2.respValue d = ackOk)
    (hother : (access d r 0 s).1 &&& ((access d r 0 s).2.dap d).matchMask ≠ m) :
    matchLoop d r m (n + 1) s = matchLoop d r m n
      ((access d r 0 s).2.setBatch d { ((access d r 0 s).2.dap d).batch with matchLeft := n }) := by
  rw [matchLoop]
  simp only [hok, ne_eq, not_true_eq_false, if_false, if_neg hother]

/-- The match loop ends with VALUE_MISMATCH after its last word if that does not match (R237). -/
theorem matchLoop_mismatch (hok : (access d r 0 s).2.respValue d = ackOk)
    (hother : (access d r 0 s).1 &&& ((access d r 0 s).2.dap d).matchMask ≠ m) :
    matchLoop d r m 0 s = (access d r 0 s).2.setRespValue d ackMismatch := by
  rw [matchLoop]
  simp only [hok, ne_eq, not_true_eq_false, if_false, if_neg hother]

/-- The result of a value-match read that ends with the word `last` (R237). -/
def matchResult (mask m : Word) (last : Option Word) : Byte :=
  if last.map (· &&& mask) = some m then ackOk else ackMismatch

/-- The words that a value-match read with `n` further reads compares: none but the last matches, and the last does or
ends the budget (R237). -/
structure Compared (mask m : Word) (n : Nat) (ws : List Word) : Prop where
  others : ∀ x ∈ ws.dropLast, x &&& mask ≠ m
  budget : ws.length ≤ n + 1
  exhausted : ws.getLast?.map (· &&& mask) ≠ some m → ws.length = n + 1

/-- After a first word of several there is a further read, and the words after it are compared in turn. -/
theorem Compared.tail {mask v w : Word} {ws : List Word} {n : Nat} (h : Compared mask m n (v :: w :: ws)) :
    v &&& mask ≠ m ∧ ∃ k, n = k + 1 ∧ Compared mask m k (w :: ws) := by
  have hbudget := h.budget
  simp only [List.length_cons] at hbudget
  obtain ⟨k, rfl⟩ : ∃ k, n = k + 1 := Nat.exists_eq_add_one.mpr (by omega)
  refine ⟨h.others v (by simp), k, rfl, fun x hx => h.others x (by simp [hx]), by simpa using hbudget, fun hlast => ?_⟩
  exact Nat.succ.inj (h.exhausted (by rwa [List.getLast?_cons_cons]))

/-- The match loop reads the words it compares (R237). -/
theorem matchLoop_words {n : Nat} {v mask : Word} {ws : List Word} (hread : r.getLsbD 1 = true)
    (hmask : (s.dap d).matchMask = mask) (hws : Compared mask m n (v :: ws))
    (hdraws : s.draws.swdio = (v :: ws).flatMap okRead ++ rest) :
    QuietRun d s (matchLoop d r m n s) ((v :: ws).flatMap fun x => packetEvents (s.dap d) r 0 (okRead x))
        ((v :: ws).flatMap okRead) ∧
      (matchLoop d r m n s).respValue d = matchResult mask m (v :: ws).getLast? := by
  induction ws generalizing n v s with
  | nil =>
    rw [List.flatMap_singleton] at hdraws
    obtain ⟨hquiet, hok, hcompared⟩ := access_matchRead hread hmask hdraws
    by_cases hmatch : v &&& mask = m
    · rw [matchLoop_first n hok (hcompared.trans hmatch)]
      exact ⟨by simpa using hquiet, hok.trans (by simp [matchResult, hmatch])⟩
    · obtain rfl : n = 0 := (Nat.succ.inj (hws.exhausted (by simpa using hmatch))).symm
      rw [matchLoop_mismatch hok (hcompared ▸ hmatch)]
      refine ⟨by simpa using hquiet.setRespValue ackMismatch, ?_⟩
      simp [State.respValue, State.setRespValue, matchResult, hmatch]
  | cons w ws ih =>
    obtain ⟨hother, n, rfl, hlater⟩ := hws.tail
    rw [List.flatMap_cons, List.append_assoc] at hdraws
    obtain ⟨hquiet, hok, hcompared⟩ := access_matchRead hread hmask hdraws
    have hnext := hquiet.setMatchLeft n
    obtain ⟨hrun, hvalue⟩ := ih (hnext.matchMask.trans hmask) hlater (hnext.left hdraws)
    rw [matchLoop_next hok (hcompared ▸ hother)]
    rw [hnext.packetEvents] at hrun
    exact ⟨by simpa using hnext.trans hrun, hvalue.trans (by rw [List.getLast?_cons_cons])⟩

/-- The match loop from its start (R237). -/
theorem matchStart_words {ws : List Word} (hread : r.getLsbD 1 = true) (hne : ws ≠ [])
    (hws : Compared (s.dap d).matchMask m (s.dap d).matchRetry.toNat ws)
    (hdraws : s.draws.swdio = ws.flatMap okRead ++ rest) :
    QuietRun d s (matchStart d r m s) (ws.flatMap fun x => packetEvents (s.dap d) r 0 (okRead x))
        (ws.flatMap okRead) ∧
      (matchStart d r m s).respValue d = matchResult (s.dap d).matchMask m ws.getLast? := by
  obtain ⟨v, ws, rfl⟩ := List.exists_cons_of_ne_nil hne
  have harmed := (QuietRun.refl d s).setMatchLeft (s.dap d).matchRetry.toNat
  obtain ⟨hrun, hvalue⟩ := matchLoop_words hread harmed.matchMask hws (harmed.left (bs := []) hdraws)
  rw [harmed.packetEvents] at hrun
  exact ⟨harmed.trans hrun, hvalue⟩

/-- A value-match read, which on the AP starts with a posting read whose word is discarded (R237). -/
theorem matchRead_words {req : Byte} {post : Word} {ws : List Word} (hread : reqIsRead req = true) (hne : ws ≠ [])
    (hws : Compared (s.dap d).matchMask m (s.dap d).matchRetry.toNat ws)
    (hdraws : s.draws.swdio = ((if reqIsAp req then [post] else []) ++ ws).flatMap okRead ++ rest) :
    QuietRun d s (matchRead d req m s)
        (((if reqIsAp req then [post] else []) ++ ws).flatMap fun x =>
          packetEvents (s.dap d) (reqNibble req) 0 (okRead x))
        (((if reqIsAp req then [post] else []) ++ ws).flatMap okRead) ∧
      (matchRead d req m s).respValue d = matchResult (s.dap d).matchMask m ws.getLast? := by
  have hrnw := (reqNibble_rnw req).trans hread
  unfold matchRead
  split
  · rename_i hap
    rw [if_pos hap, List.singleton_append, List.flatMap_cons, List.append_assoc] at hdraws
    obtain ⟨hquiet, hok, -⟩ := access_matchRead hrnw rfl hdraws
    have hretry : ((access d (reqNibble req) 0 s).2.dap d).matchRetry = (s.dap d).matchRetry := by
      rw [hquiet.frame.dap]
    rw [← hquiet.matchMask, ← hretry] at hws
    obtain ⟨hrun, hvalue⟩ := matchStart_words hrnw hne hws (hquiet.left hdraws)
    rw [hquiet.packetEvents] at hrun
    dsimp only
    rw [if_pos hok, hvalue, hquiet.matchMask]
    exact ⟨hquiet.trans hrun, rfl⟩
  · rename_i hdp
    rw [if_neg hdp, List.nil_append] at hdraws
    exact matchStart_words hrnw hne hws hdraws

/-- A value-match read with nothing to collect (R231). -/
theorem oneRequest_match {q : XferReq} (hread : reqIsRead q.req = true) (hmatch : reqIsMatch q.req = true)
    (hpost : (s.control d).post = false) :
    oneRequest d q s =
      if (matchRead d q.req (reqWord q) s).respValue d = ackOk then
        (matchRead d q.req (reqWord q) s).setCheckWrite d false
      else matchRead d q.req (reqWord q) s := by
  have hunposted : (s.dap d).batch.postRead = false := hpost
  simp [oneRequest, hunposted, requestBody, hread, hmatch]

/-- A batch of one value-match read (R231, R237). -/
theorem transferBatch_match {q : XferReq} {post : Word} {ws : List Word} (hread : reqIsRead q.req = true)
    (hmatch : reqIsMatch q.req = true) (hne : ws ≠ [])
    (hws : Compared (s.dap d).matchMask (reqWord q) (s.dap d).matchRetry.toNat ws)
    (hdraws : s.draws.swdio = ((if reqIsAp q.req then [post] else []) ++ ws).flatMap okRead ++ rest) :
    AccessRun d (batchStart d s) (transferBatch d [q] s)
        (((if reqIsAp q.req then [post] else []) ++ ws).flatMap fun x =>
          packetEvents (s.dap d) (reqNibble q.req) 0 (okRead x))
        (((if reqIsAp q.req then [post] else []) ++ ws).flatMap okRead) ∧
      transferReply d (transferBatch d [q] s) =
        if ws.getLast?.map (· &&& (s.dap d).matchMask) = some (reqWord q) then [0x05, 0x01, 0x01]
        else [0x05, 0x00, 0x11] := by
  have hregs := batchStart_dap d s
  obtain ⟨hquiet, hvalue⟩ := matchRead_words (s := batchStart d s) hread hne (by rwa [hregs])
    (by rw [batchStart_draws, hdraws])
  obtain ⟨hbatch, hreply⟩ := transferBatch_single_read
    (oneRequest_match hread hmatch (by rw [batchStart_control])) hquiet.toAccessRun hquiet.control
  rw [batchStart_packetEvents] at hbatch
  refine ⟨hbatch, hreply.trans ?_⟩
  rw [hvalue, hquiet.out, batchStart_out, hregs, matchResult]
  by_cases hlast : ws.getLast?.map (· &&& (s.dap d).matchMask) = some (reqWord q)
  · rw [if_pos hlast, if_pos hlast]
    rfl
  · rw [if_neg hlast, if_neg hlast]
    rfl

end

/-- The request byte of a value-match read (R93). -/
theorem matchRequest_byte : ∀ (ap : Bool) (a : BitVec 2),
    let req : Byte := (swdNibble ap true a).setWidth 8 ||| 0x10
    reqIsRead req = true ∧ reqIsMatch req = true ∧ reqIsAp req = ap ∧ reqNibble req = swdNibble ap true a := by
  decide

/-- Settles O56: a mask write makes no access, and a value-match read those of its match loop. -/
theorem maskAndMatch : Obligations.MaskAndMatch := by
  refine fun s d idx hcan hconn => ⟨fun req w hwrite hmask => execDapTransfer_maskWrite idx hcan hconn w hwrite hmask,
    fun ap a m post ws rest => ?_⟩
  intro r words hdraws hothers hne hbudget hend
  obtain ⟨hread, hmatch, hap, hnibble⟩ := matchRequest_byte ap a
  have hleased := State.leased_dap s d.chan d
  obtain ⟨hrun, hreply⟩ := transferBatch_match (d := d) (s := s.leased d.chan) (post := post)
    (q := ⟨(swdNibble ap true a).setWidth 8 ||| 0x10, some m⟩) hread hmatch hne
    (by rw [hleased]; exact ⟨hothers, hbudget, hend⟩) (by rw [State.leased_draws, hap]; exact hdraws)
  rw [hap, hnibble, hleased] at hrun
  rw [hleased] at hreply
  exact execDapTransfer_run idx hcan hconn hrun hreply hdraws

end Sys2Proof.Machine
end

section
/-! SUPPORT. Blocks of DAP_TransferBlock, element by element: the read pipeline, the confirmed write, and the element
whose access fails (R245 to R247, R250). -/

namespace Sys2Proof.Machine

/-! ## Counted elements -/

/-- From `s` to `t` the accesses of a block put the events `ks` on the wire and sample `bs`; the block counts `n`
elements and answers the words `ws`. -/
structure BlockRun (d : DapCh) (s t : State) (ks : List EventKind) (bs : List Bool) (n : Nat) (ws : List Word) : Prop
    extends AccessRun d s t ks bs where
  control : t.control d = { s.control d with count := (s.control d).count + n }
  words : (t.dap d).batch.out = (s.dap d).batch.out ++ ws.flatMap le32

/-- Accesses that are not counted. -/
theorem QuietRun.blockRun {d : DapCh} {s t : State} {ks : List EventKind} {bs : List Bool} (h : QuietRun d s t ks bs) :
    BlockRun d s t ks bs 0 [] :=
  ⟨h.toAccessRun, h.control, by rw [h.out, List.flatMap_nil, List.append_nil]⟩

namespace BlockRun

variable {d : DapCh} {s t u : State} {ks ls : List EventKind} {bs cs : List Bool} {n m : Nat} {ws vs : List Word}

theorem trans (h : BlockRun d s t ks bs n ws) (k : BlockRun d t u ls cs m vs) :
    BlockRun d s u (ks ++ ls) (bs ++ cs) (n + m) (ws ++ vs) where
  toAccessRun := h.toAccessRun.trans k.toAccessRun
  control := by
    rw [k.control, h.control]
    simp only [Nat.add_assoc]
  words := by rw [k.words, h.words, List.flatMap_append, List.append_assoc]

theorem countOne (h : BlockRun d s t ks bs n ws) : BlockRun d s (t.countOne d) ks bs (n + 1) ws where
  toAccessRun := h.toAccessRun.countOne
  control := by
    rw [countOne_control, h.control]
    rfl
  words := by rw [countOne_out, h.words]

theorem emitWord (h : BlockRun d s t ks bs n ws) (v : Word) : BlockRun d s (t.emitWord d v) ks bs n (ws ++ [v]) where
  toAccessRun := h.toAccessRun.emitWord v
  control := by rw [emitWord_control, h.control]
  words := by
    rw [State.emitWord, State.setBatch_dap_self, List.flatMap_append, List.flatMap_singleton, ← List.append_assoc,
      ← h.words]

end BlockRun

/-- A DAP_TransferBlock whose block makes the events `ks` on the wire, counts `n` elements and answers `ws` (R245). -/
theorem execDapTransferBlock_run {s : State} {d : DapCh} {count : Half} {req : Byte} {data : List Word}
    {ks : List EventKind} {bs rest : List Bool} {n : Nat} {ws : List Word} {value : Byte} (idx : Byte)
    (hcan : s.CanLease d.chan) (hconn : (s.dap d).dapState ≠ .disconnected) (hcount : count ≠ 0)
    (hrun : BlockRun d (batchStart d (s.leased d.chan)) (blockBatch d count.toNat req data (s.leased d.chan)) ks bs n
      ws)
    (hvalue : (blockBatch d count.toNat req data (s.leased d.chan)).respValue d = value)
    (hdraws : s.draws.swdio = bs ++ rest) :
    ∃ t, exec (.dapTransferBlock d idx count req data) s = .next t ∧
      t.response d.chan = some (0x06 :: le16 (BitVec.ofNat 16 n) ++ value :: ws.flatMap le32) ∧
      t.draws.swdio = rest ∧ t.log = gains (some d.chan) ks ((s.leased d.chan).busStart d).log ∧
      (t.dap d).xferFsm = ((blockBatch d count.toNat req data (s.leased d.chan)).dap d).xferFsm := by
  have hcounted : ((blockBatch d count.toNat req data (s.leased d.chan)).dap d).batch.respCount = n := by
    have hcontrol := congrArg BatchControl.count hrun.control
    rw [batchStart_control] at hcontrol
    exact hcontrol.trans (Nat.zero_add n)
  have hout := hrun.words
  rw [batchStart_out, List.nil_append] at hout
  refine ⟨_, execDapTransferBlock_connected idx req data hcan hconn hcount, ?_, ?_, ?_, ?_⟩
  · rw [State.respond_response, blockReply, hcounted, hvalue, hout]
  · rw [State.respond_draws]
    exact hrun.left (by rw [batchStart_draws, State.leased_draws, hdraws])
  · rw [State.respond_log, hrun.log, batchStart_owner, batchStart_log, hcan.leased_owner]
  · rw [State.respond_dap]

/-- The request byte of a block, whatever its ignored bits (R94). -/
theorem blockRequest_byte : ∀ (high : BitVec 4) (ap rnw : Bool) (a : BitVec 2),
    let req : Byte := high ++ swdNibble ap rnw a
    reqIsRead req = rnw ∧ reqIsAp req = ap ∧ reqNibble req = swdNibble ap rnw a := by
  decide

theorem swdNibble_bits : ∀ (ap rnw : Bool) (a : BitVec 2),
    (swdNibble ap rnw a).getLsbD 0 = ap ∧ (swdNibble ap rnw a).getLsbD 1 = rnw := by
  decide

/-! ## Elements of a read -/

section

variable {d : DapCh} {r : Nibble} {w v : Word} {s : State} {rest : List Bool}

/-- The request of a block read's element with `left` elements after it: the last one of an AP block is collected by
RDBUFF (R245). -/
def blockNibble (r : Nibble) (left : Nat) : Nibble := if left = 0 ∧ r.getLsbD 0 = true then rdbuff else r

@[simp] theorem blockNibble_succ (r : Nibble) (n : Nat) : blockNibble r (n + 1) = r := if_neg fun h => nomatch h.1

theorem blockNibble_read (hread : r.getLsbD 1 = true) (n : Nat) : (blockNibble r n).getLsbD 1 = true := by
  unfold blockNibble
  split
  · decide
  · exact hread

/-- An element that is read OK is counted, and the block goes on (R245). -/
theorem blockRead_ok {n : Nat} (h : (accessEmit d (blockNibble r n) s).respValue d = ackOk) :
    blockRead d r (n + 1) s = blockRead d r n ((accessEmit d (blockNibble r n) s).countOne d) := if_pos h

/-- An element that does not end OK ends the block (R250). -/
theorem blockRead_failed {n : Nat} (h : (accessEmit d (blockNibble r n) s).respValue d ≠ ackOk) :
    blockRead d r (n + 1) s = accessEmit d (blockNibble r n) s := if_neg h

/-- An element that is answered OK with good parity is counted with its word (R245). -/
theorem accessEmit_element (hread : r.getLsbD 1 = true) (hdraws : s.draws.swdio = okRead v ++ rest) :
    (accessEmit d r s).respValue d = ackOk ∧
      BlockRun d s ((accessEmit d r s).countOne d) (packetEvents (s.dap d) r 0 (okRead v)) (okRead v) 1 [v] := by
  obtain ⟨hquiet, hword, hok⟩ := access_okRead (d := d) (w := 0) (n := 0) hread (Nat.zero_le _) hdraws
  have hemit := accessEmit_ok hok
  rw [hword] at hemit
  rw [hemit]
  exact ⟨(emitWord_respValue ..).trans hok, (hquiet.blockRun.emitWord v).countOne⟩

/-- The elements of a block read that are answered OK, with more elements after them (R245). -/
theorem blockRead_elements (n : Nat) {vs : List Word} (hread : r.getLsbD 1 = true)
    (hdraws : s.draws.swdio = vs.flatMap okRead ++ rest) :
    ∃ t, blockRead d r (vs.length + (n + 1)) s = blockRead d r (n + 1) t ∧
      BlockRun d s t (vs.flatMap fun x => packetEvents (s.dap d) r 0 (okRead x)) (vs.flatMap okRead) vs.length vs := by
  induction vs generalizing s with
  | nil => exact ⟨s, by rw [List.length_nil, Nat.zero_add], (QuietRun.refl d s).blockRun⟩
  | cons v vs ih =>
    rw [List.flatMap_cons, List.append_assoc] at hdraws
    obtain ⟨hok, hrun⟩ := accessEmit_element (d := d) hread hdraws
    obtain ⟨t, hrest, hlater⟩ := ih (hrun.left hdraws)
    refine ⟨t, ?_, ?_⟩
    · rw [List.length_cons, Nat.add_right_comm, ← Nat.add_assoc]
      rw [blockRead_ok (by rwa [blockNibble_succ]), blockNibble_succ]
      exact hrest
    · rw [hrun.packetEvents] at hlater
      rw [List.length_cons, Nat.add_comm]
      exact hrun.trans hlater

/-- A block read whose elements are all answered OK (R247). -/
theorem blockRead_all {vs : List Word} (hread : r.getLsbD 1 = true)
    (hdraws : s.draws.swdio = (vs ++ [v]).flatMap okRead ++ rest) :
    BlockRun d s (blockRead d r (vs.length + 1) s)
        ((vs.flatMap fun x => packetEvents (s.dap d) r 0 (okRead x)) ++
          packetEvents (s.dap d) (blockNibble r 0) 0 (okRead v))
        ((vs ++ [v]).flatMap okRead) (vs.length + 1) (vs ++ [v]) ∧
      (blockRead d r (vs.length + 1) s).respValue d = ackOk := by
  rw [List.flatMap_append, List.append_assoc, List.flatMap_singleton] at hdraws
  obtain ⟨t, hrest, hrun⟩ := blockRead_elements (d := d) 0 hread hdraws
  obtain ⟨hok, hlast⟩ := accessEmit_element (d := d) (blockNibble_read hread 0) (hrun.left hdraws)
  rw [hrest, blockRead_ok hok]
  rw [hrun.packetEvents] at hlast
  refine ⟨?_, (countOne_respValue ..).trans hok⟩
  rw [List.flatMap_append, List.flatMap_singleton]
  exact hrun.trans hlast

/-- The word of the access that an AP block posts first (R245). -/
def postedWords (ap : Bool) (stale : Word) : List Word := if ap then [stale] else []

/-- A read block up to its first element: on the AP one posting read, whose word is discarded (R245). -/
theorem blockBatch_read_start {req : Byte} {ap : Bool} {stale : Word} (m : Nat) (hread : reqIsRead req = true)
    (hap : reqIsAp req = ap) (hdraws : s.draws.swdio = (postedWords ap stale).flatMap okRead ++ rest) :
    ∃ t, (∀ data, blockBatch d m req data s = blockRead d (reqNibble req) m t) ∧
      BlockRun d (batchStart d s) t
        ((postedWords ap stale).flatMap fun x => packetEvents (s.dap d) (reqNibble req) 0 (okRead x))
        ((postedWords ap stale).flatMap okRead) 0 [] := by
  subst hap
  by_cases hap : reqIsAp req = true
  · rw [hap, postedWords, if_pos rfl, List.flatMap_singleton] at hdraws ⊢
    obtain ⟨hquiet, -, hok⟩ := access_okRead (d := d) (s := batchStart d s) (w := 0) (n := 0)
      ((reqNibble_rnw req).trans hread) (Nat.zero_le _) ((batchStart_draws d s).symm ▸ hdraws)
    rw [batchStart_packetEvents] at hquiet
    exact ⟨_, fun data => by rw [blockBatch_read hread, if_pos hap, if_pos hok], by simpa using hquiet.blockRun⟩
  · rw [postedWords, if_neg hap]
    exact ⟨_, fun data => by rw [blockBatch_read hread, if_neg hap], (QuietRun.refl d _).blockRun⟩

/-! ## Elements of a write -/

theorem blockWrite_ok (h : (access d r w s).2.respValue d = ackOk) (ws : List Word) :
    blockWrite d r (w :: ws) s = blockWrite d r ws ((access d r w s).2.countOne d) := if_pos h

theorem blockWrite_failed (h : (access d r w s).2.respValue d ≠ ackOk) (ws : List Word) :
    blockWrite d r (w :: ws) s = (access d r w s).2 := if_neg h

/-- An access that samples one packet, whatever its result: any answer but a WAIT with retries left (R203). -/
theorem access_once_quiet {bs : List Bool} (w : Word) (hbits : PacketBits r bs)
    (hwait : ackOf (bs.take 3) = ackWait → (s.dap d).retryCount = 0) (hdraws : s.draws.swdio = bs ++ rest) :
    QuietRun d s (access d r w s).2 (packetEvents (s.dap d) r w bs) bs ∧
      (access d r w s).2.respValue d = (packetResult r bs).ack := by
  obtain ⟨hrun, hbatch⟩ := access_once w hbits hwait hdraws
  exact ⟨⟨hrun, access_control .., access_out ..⟩, congrArg Batch.respValue hbatch⟩

/-- The words of a block write that are answered OK, with more words after them (R245). -/
theorem blockWrite_elements {ws : List Word} (later : List Word) (hwrite : r.getLsbD 1 = false)
    (hdraws : s.draws.swdio = (List.replicate ws.length okWrite).flatten ++ rest) :
    ∃ t, blockWrite d r (ws ++ later) s = blockWrite d r later t ∧
      BlockRun d s t (ws.flatMap fun w => packetEvents (s.dap d) r w okWrite)
        (List.replicate ws.length okWrite).flatten ws.length [] ∧
      (ws ≠ [] ∨ s.respValue d = ackOk → t.respValue d = ackOk) := by
  obtain ⟨hbits, hresult⟩ := okWrite_bits hwrite
  induction ws generalizing s with
  | nil => exact ⟨s, rfl, (QuietRun.refl d s).blockRun, fun h => h.resolve_left fun hne => hne rfl⟩
  | cons w ws ih =>
    rw [List.length_cons, List.replicate_succ, List.flatten_cons, List.append_assoc] at hdraws
    obtain ⟨hquiet, hvalue⟩ := access_once_quiet (d := d) w hbits (fun h => absurd h (by decide)) hdraws
    rw [hresult] at hvalue
    have hrun := hquiet.blockRun.countOne
    obtain ⟨t, hrest, hlater, hlast⟩ := ih (hrun.left hdraws)
    refine ⟨t, (blockWrite_ok hvalue _).trans hrest, ?_, fun _ => hlast (.inr ((countOne_respValue ..).trans hvalue))⟩
    rw [hrun.packetEvents] at hlater
    have hboth := hrun.trans hlater
    rw [Nat.zero_add, Nat.add_comm] at hboth
    exact hboth

/-- A write block, whose words are all answered OK, and its RDBUFF read, which samples `bs` (R246). -/
theorem blockBatch_write_confirmed {req : Byte} {ws : List Word} {bs : List Bool} (m : Nat)
    (hreq : reqIsRead req = false) (hne : ws ≠ []) (hbits : PacketBits rdbuff bs)
    (hwait : ackOf (bs.take 3) = ackWait → (s.dap d).retryCount = 0)
    (hdraws : s.draws.swdio = (List.replicate ws.length okWrite).flatten ++ bs ++ rest) :
    BlockRun d (batchStart d s) (blockBatch d m req ws s)
        ((ws.flatMap fun w => packetEvents (s.dap d) (reqNibble req) w okWrite) ++
          packetEvents (s.dap d) rdbuff 0 bs)
        ((List.replicate ws.length okWrite).flatten ++ bs) ws.length [] ∧
      (blockBatch d m req ws s).respValue d = (packetResult rdbuff bs).ack := by
  rw [List.append_assoc, ← batchStart_draws d s] at hdraws
  obtain ⟨t, hrest, hrun, hlast⟩ := blockWrite_elements [] ((reqNibble_rnw req).trans hreq) hdraws
  rw [List.append_nil, blockWrite] at hrest
  obtain ⟨hquiet, hvalue⟩ := access_once_quiet (d := d) 0 hbits
    (fun h => by rw [hrun.retryCount, batchStart_retryCount, hwait h]) (hrun.left hdraws)
  rw [blockBatch_write hreq, hrest, if_pos (hlast (.inl hne))]
  rw [hrun.packetEvents] at hquiet
  rw [← batchStart_packetEvents d s]
  exact ⟨hrun.trans hquiet.blockRun, hvalue⟩

/-! ## The element that fails -/

/-- What a failing access samples depends on RETRY_COUNT, and on whether it reads (R203). -/
theorem FailedAccess.congr {x y : DapRegs} {r' : Nibble} {bs : List Bool} {cause : Byte}
    (h : FailedAccess x r bs cause) (hretry : y.retryCount = x.retryCount) (hrnw : r'.getLsbD 1 = r.getLsbD 1) :
    FailedAccess y r' bs cause := by
  rw [FailedAccess, hretry, hrnw]
  exact h

/-- A failing access does not end OK (R234). -/
theorem FailedAccess.cause_ne_ok {x : DapRegs} {bs : List Bool} {cause : Byte} (h : FailedAccess x r bs cause) :
    cause ≠ ackOk := by
  obtain ⟨-, -, hne, -⟩ | ⟨-, rfl⟩ | ⟨-, -, rfl⟩ := h
  · exact hne
  · decide
  · decide

/-- A failing access is not counted, answers no word, and leaves XFER_FSM Faulted (R204, R250). -/
theorem access_failed {bs : List Bool} {cause : Byte} (w : Word) (h : FailedAccess (s.dap d) r bs cause)
    (hdraws : s.draws.swdio = bs ++ rest) :
    ∃ ks, QuietRun d s (access d r w s).2 ks bs ∧ (access d r w s).2.respValue d = cause ∧
      ((access d r w s).2.dap d).xferFsm = .faulted := by
  have hresult : ∃ ks res, (swdXferRetry d r w s).1 = res ∧ res.ack = cause ∧
      AccessRun d s (swdXferRetry d r w s).2 ks bs := by
    obtain ⟨hlen, hack, hok, hwait⟩ | ⟨rfl, rfl⟩ | ⟨hread, ⟨v, rfl⟩, rfl⟩ := h
    · have htake : bs.take 3 = bs := List.take_of_length_le hlen.le
      have hno : ¬ (ackOf (bs.take 3) = ackOk ∧ r.getLsbD 1 = true) := fun h => hok (by rw [← hack, ← htake, h.1])
      obtain ⟨hanswer, hrun, -⟩ := swdXferRetry_answered (r := r) (w := w) (n := 0) (Nat.zero_le _)
        (hlen.trans (if_neg hno).symm) (by rwa [htake, hack]) hdraws
      exact ⟨_, _, hanswer, by rw [packetResult_other hno, htake, hack], hrun⟩
    · obtain ⟨hanswer, hrun⟩ := swdXferRetry_exhausted (r := r) (w := w) hdraws
      exact ⟨_, _, hanswer, rfl, hrun⟩
    · obtain ⟨hbits, hparity⟩ := okReadWithParity_bits hread v (!xor32 v)
      have hack : ackOf (([true, false, false] ++ bitsOf v ++ [!xor32 v]).take 3) = ackOk := by
        simp only [List.append_assoc, List.cons_append, List.take_succ_cons, List.take_zero]
        rfl
      obtain ⟨hanswer, hrun, -⟩ := swdXferRetry_answered (w := w) (n := 0) (Nat.zero_le _) hbits
        (by rw [hack]; decide) hdraws
      exact ⟨_, _, hanswer, by rw [hparity, if_neg (Bool.not_ne_self _)], hrun⟩
  obtain ⟨ks, res, hres, hack, hrun⟩ := hresult
  obtain ⟨hquiet, -, hvalue, hfsm⟩ := access_of_retry hres hrun
  rw [hack] at hvalue hfsm
  exact ⟨ks, hquiet, hvalue, hfsm.trans (if_neg h.cause_ne_ok)⟩

/-- `t` ends a block of `d` from `s` that counted `n` elements, answers `ws`, and failed with `cause` (R250). -/
def BlockFails (d : DapCh) (s t : State) (bs : List Bool) (n : Nat) (ws : List Word) (cause : Byte) : Prop :=
  ∃ ks, BlockRun d s t ks bs n ws ∧ t.respValue d = cause ∧ (t.dap d).xferFsm = .faulted

/-- An access that fails after `n` elements ends the block there. -/
theorem BlockRun.fails {t : State} {ks : List EventKind} {bs cs : List Bool} {n : Nat} {ws : List Word} {cause : Byte}
    (w : Word) (hrun : BlockRun d s t ks bs n ws) (hfail : FailedAccess (s.dap d) r cs cause)
    (hdraws : s.draws.swdio = bs ++ cs ++ rest) :
    BlockFails d s (access d r w t).2 (bs ++ cs) n ws cause ∧ (access d r w t).2.respValue d ≠ ackOk := by
  rw [List.append_assoc] at hdraws
  obtain ⟨ls, hquiet, hvalue, hfsm⟩ := access_failed w (hfail.congr hrun.retryCount rfl) (hrun.left hdraws)
  have hboth := hrun.trans hquiet.blockRun
  rw [Nat.add_zero, List.append_nil] at hboth
  exact ⟨⟨_, hboth, hvalue, hfsm⟩, hvalue.trans_ne hfail.cause_ne_ok⟩

/-- A write block whose word after `ws` is answered with a failure (R250). -/
theorem blockBatch_write_fails {req : Byte} {ws later : List Word} {bs : List Bool} {cause : Byte} (m : Nat)
    (hreq : reqIsRead req = false) (hfail : FailedAccess (s.dap d) (reqNibble req) bs cause)
    (hdraws : s.draws.swdio = (List.replicate ws.length okWrite).flatten ++ bs ++ rest) :
    BlockFails d (batchStart d s) (blockBatch d m req (ws ++ w :: later) s)
      ((List.replicate ws.length okWrite).flatten ++ bs) ws.length [] cause := by
  rw [← batchStart_draws d s] at hdraws
  obtain ⟨t, hrest, hrun, -⟩ := blockWrite_elements (w :: later) ((reqNibble_rnw req).trans hreq)
    (hdraws.trans (List.append_assoc ..))
  obtain ⟨hends, hnot⟩ := hrun.fails w (hfail.congr (batchStart_retryCount d s) rfl) hdraws
  rw [blockBatch_write hreq, hrest, blockWrite_failed hnot, if_neg hnot]
  exact hends

/-- A read block whose element after the words `vs` is answered with a failure (R250). -/
theorem blockBatch_read_fails {req : Byte} {ap : Bool} {stale : Word} {vs : List Word} {bs : List Bool} {cause : Byte}
    (n : Nat) (hreq : reqIsRead req = true) (hap : reqIsAp req = ap)
    (hfail : FailedAccess (s.dap d) (reqNibble req) bs cause)
    (hdraws : s.draws.swdio = (postedWords ap stale ++ vs).flatMap okRead ++ bs ++ rest) (data : List Word) :
    BlockFails d (batchStart d s) (blockBatch d (vs.length + (n + 1)) req data s)
      ((postedWords ap stale ++ vs).flatMap okRead ++ bs) vs.length vs cause := by
  have hrnw := (reqNibble_rnw req).trans hreq
  have hstream : s.draws.swdio = (postedWords ap stale).flatMap okRead ++ (vs.flatMap okRead ++ (bs ++ rest)) := by
    simpa only [List.flatMap_append, List.append_assoc] using hdraws
  obtain ⟨t, hstart, hposted⟩ := blockBatch_read_start (d := d) (vs.length + (n + 1)) hreq hap hstream
  rw [← batchStart_draws d s] at hstream hdraws
  obtain ⟨u, hrest, hread⟩ := blockRead_elements (d := d) n hrnw (hposted.left hstream)
  have hrun := hposted.trans hread
  rw [Nat.zero_add, List.nil_append, ← List.flatMap_append] at hrun
  obtain ⟨hends, hnot⟩ := hrun.fails (r := blockNibble (reqNibble req) n) 0
    (hfail.congr (batchStart_retryCount d s) ((blockNibble_read hrnw n).trans hrnw.symm)) hdraws
  have hlast := accessEmit_failed hnot
  rw [hstart, hrest, blockRead_failed (by rwa [hlast]), hlast]
  exact hends

/-- An AP read block whose posting read is answered with a failure counts no element (R245, R250). -/
theorem blockBatch_posting_fails {req : Byte} {bs : List Bool} {cause : Byte} (m : Nat) (hreq : reqIsRead req = true)
    (hap : reqIsAp req = true) (hfail : FailedAccess (s.dap d) (reqNibble req) bs cause)
    (hdraws : s.draws.swdio = bs ++ rest) (data : List Word) :
    BlockFails d (batchStart d s) (blockBatch d m req data s) bs 0 [] cause := by
  rw [← batchStart_draws d s] at hdraws
  obtain ⟨hends, hnot⟩ := (QuietRun.refl d (batchStart d s)).blockRun.fails 0
    (hfail.congr (batchStart_retryCount d s) rfl) hdraws
  rw [blockBatch_read hreq, if_pos hap, if_neg hnot]
  exact hends

end

/-- A DAP_TransferBlock whose block fails (R250). -/
theorem execDapTransferBlock_fails {s : State} {d : DapCh} {count : Half} {req : Byte} {data : List Word}
    {bs rest : List Bool} {n : Nat} {ws : List Word} {cause : Byte} (idx : Byte) (hcan : s.CanLease d.chan)
    (hconn : (s.dap d).dapState ≠ .disconnected) (hcount : count ≠ 0)
    (hfails : BlockFails d (batchStart d (s.leased d.chan)) (blockBatch d count.toNat req data (s.leased d.chan)) bs n
      ws cause) (hdraws : s.draws.swdio = bs ++ rest) :
    ∃ t, exec (.dapTransferBlock d idx count req data) s = .next t ∧
      t.response d.chan = some (0x06 :: le16 (BitVec.ofNat 16 n) ++ cause :: ws.flatMap le32) ∧
      t.draws.swdio = rest ∧ (t.dap d).xferFsm = .faulted := by
  obtain ⟨ks, hrun, hvalue, hfsm⟩ := hfails
  obtain ⟨t, hexec, hresp, hrest, -, hsame⟩ := execDapTransferBlock_run idx hcan hconn hcount hrun hvalue hdraws
  exact ⟨t, hexec, hresp, hrest, hsame.trans hfsm⟩

/-! ## The statements -/

/-- Reads of one register as a list of requests beside their words. -/
theorem flatMap_zip_replicate {α β γ : Type} (f : α × β → List γ) (a : α) (ws : List β) :
    (List.zip (List.replicate ws.length a) ws).flatMap f = ws.flatMap fun w => f (a, w) := by
  induction ws with
  | nil => rfl
  | cons w ws ih => rw [List.length_cons, List.replicate_succ, List.zip_cons_cons, List.flatMap_cons, ih]; rfl

/-- The accesses of a read block, from its posting read to its last (R247). -/
theorem blockRead_events (f : Nibble × Word → List EventKind) (r : Nibble) (stale v : Word) (ws : List Word) :
    (List.zip (List.replicate (ws.length + 1) r ++ if r.getLsbD 0 then [rdbuff] else [])
        (postedWords (r.getLsbD 0) stale ++ (ws ++ [v]))).flatMap f =
      ((postedWords (r.getLsbD 0) stale).flatMap fun x => f (r, x)) ++
        ((ws.flatMap fun x => f (r, x)) ++ f (blockNibble r 0, v)) := by
  by_cases hap : r.getLsbD 0 = true
  · have hlast : blockNibble r 0 = rdbuff := if_pos ⟨rfl, hap⟩
    rw [if_pos hap, hap, postedWords, if_pos rfl, hlast, List.replicate_succ, List.cons_append, List.singleton_append,
      List.zip_cons_cons, List.zip_append (List.length_replicate ..), List.flatMap_cons, List.flatMap_append,
      flatMap_zip_replicate]
    simp
  · have hlast : blockNibble r 0 = r := if_neg fun h => hap h.2
    have hlen : ws.length + 1 = (ws ++ [v]).length := by simp
    rw [if_neg hap, postedWords, if_neg hap, hlast, List.append_nil, List.nil_append, hlen, flatMap_zip_replicate]
    simp

/-- The count of a block that ends OK, as its frame gives it (R245). -/
theorem ofNat_count {count : Half} {n : Nat} (h : n = count.toNat) : BitVec.ofNat 16 n = count := by
  rw [h, BitVec.ofNat_toNat, BitVec.setWidth_eq]

theorem ne_nil_of_count {α : Type} {xs : List α} {count : Half} (hlen : xs.length = count.toNat) (hcount : count ≠ 0) :
    xs ≠ [] := by
  rintro rfl
  exact hcount (BitVec.eq_of_toNat_eq hlen.symm)

/-- A read block whose accesses are all answered OK: its events and its words (R247). -/
theorem blockBatch_read_all {d : DapCh} {s : State} {req : Byte} {stale v : Word} {vs : List Word} {rest : List Bool}
    (hread : reqIsRead req = true)
    (hdraws : s.draws.swdio = (postedWords (reqIsAp req) stale ++ (vs ++ [v])).flatMap okRead ++ rest)
    (data : List Word) :
    BlockRun d (batchStart d s) (blockBatch d (vs.length + 1) req data s)
        (((postedWords (reqIsAp req) stale).flatMap fun x => packetEvents (s.dap d) (reqNibble req) 0 (okRead x)) ++
          ((vs.flatMap fun x => packetEvents (s.dap d) (reqNibble req) 0 (okRead x)) ++
            packetEvents (s.dap d) (blockNibble (reqNibble req) 0) 0 (okRead v)))
        ((postedWords (reqIsAp req) stale ++ (vs ++ [v])).flatMap okRead) (vs.length + 1) (vs ++ [v]) ∧
      (blockBatch d (vs.length + 1) req data s).respValue d = ackOk := by
  rw [List.flatMap_append] at hdraws ⊢
  have hstream := hdraws.trans (List.append_assoc ..)
  obtain ⟨t, hstart, hposted⟩ := blockBatch_read_start (d := d) (vs.length + 1) hread rfl hstream
  rw [← batchStart_draws d s] at hstream
  obtain ⟨helements, hok⟩ := blockRead_all (d := d) ((reqNibble_rnw req).trans hread) (hposted.left hstream)
  have hrun := hposted.trans helements
  rw [Nat.zero_add, List.nil_append, hposted.packetEvents, batchStart_packetEvents] at hrun
  rw [hstart]
  exact ⟨hrun, hok⟩

/-- Settles O58: the elements are read one after another, on the AP behind a posting read. -/
theorem blockReadPipeline : Obligations.BlockReadPipeline := by
  intro s d idx count ap a high stale vs rest hcan hconn hcount hlen r words nibbles hdraws
  obtain ⟨hread, hap, hnibble⟩ := blockRequest_byte high ap true a
  obtain ⟨vs, v, rfl⟩ := (List.eq_nil_or_concat' vs).resolve_left (ne_nil_of_count hlen hcount)
  rw [List.length_append, List.length_singleton] at hlen
  have hdrawn : s.draws.swdio =
      (postedWords (reqIsAp (high ++ swdNibble ap true a)) stale ++ (vs ++ [v])).flatMap okRead ++ rest := by
    rw [hap]
    exact hdraws
  obtain ⟨hrun, hok⟩ := blockBatch_read_all (d := d) hread
    ((congrArg Draws.swdio (State.leased_draws ..)).trans hdrawn) []
  rw [hlen, hap, hnibble, State.leased_dap] at hrun
  rw [hlen] at hok
  obtain ⟨t, hexec, hresp, hrest, hlog, -⟩ := execDapTransferBlock_run idx hcan hconn hcount hrun hok hdraws
  have hevents := blockRead_events (fun x => packetEvents (s.dap d) x.1 0 (okRead x.2)) r stale v vs
  rw [(swdNibble_bits ap true a).1, hlen] at hevents
  rw [ofNat_count rfl] at hresp
  rw [← hevents] at hlog
  exact ⟨t, hexec, hresp, hrest, hlog⟩

/-- Settles O59: the block is its writes and the RDBUFF read, which leaves its result in RESP_VALUE. -/
theorem blockWriteConfirmed : Obligations.BlockWriteConfirmed := by
  intro s d idx count ap a high ws bs rest hcan hconn hcount hlen hbits hwait r hdraws
  obtain ⟨hwrite, -, hnibble⟩ := blockRequest_byte high ap false a
  obtain ⟨hrun, hvalue⟩ := blockBatch_write_confirmed (d := d) (s := s.leased d.chan) count.toNat hwrite
    (ne_nil_of_count hlen hcount) hbits (by rwa [State.leased_dap]) (by rw [State.leased_draws, hdraws])
  rw [hnibble, State.leased_dap] at hrun
  obtain ⟨t, hexec, hresp, hrest, hlog, -⟩ := execDapTransferBlock_run idx hcan hconn hcount hrun hvalue hdraws
  rw [ofNat_count hlen] at hresp
  exact ⟨t, hexec, hresp, hrest, hlog⟩

/-- Settles O60: a failing word of a write, a failing element of a read, and a failing posting read. -/
theorem blockFaultPosition : Obligations.BlockFaultPosition := by
  intro s d idx count ap a high j bs rest cause hcan hconn hj
  have hcount : count ≠ 0 := by
    rintro rfl
    exact Nat.not_lt_zero j hj
  obtain ⟨n, hn⟩ := Nat.exists_eq_add_of_lt hj
  obtain ⟨hwrite, -, hwriteNibble⟩ := blockRequest_byte high ap false a
  obtain ⟨hread, hap, hreadNibble⟩ := blockRequest_byte high ap true a
  refine ⟨fun ws hlen hfail hdraws => ?_, fun stale vs hlen hfail hdraws => ?_, fun hAp hfail hdraws => ?_⟩
  · have hshort : j < ws.length := hlen ▸ hj
    have htake : (ws.take j).length = j := List.length_take_of_le hshort.le
    have hfails := blockBatch_write_fails (d := d) (s := s.leased d.chan) (ws := ws.take j) (w := ws[j])
      (later := ws.drop (j + 1)) (rest := rest) count.toNat hwrite (by rwa [hwriteNibble, State.leased_dap])
      (by rw [htake, State.leased_draws, hdraws])
    rw [← List.drop_eq_getElem_cons hshort, List.take_append_drop, htake] at hfails
    exact execDapTransferBlock_fails idx hcan hconn hcount hfails hdraws
  · have hfails := blockBatch_read_fails (d := d) (s := s.leased d.chan) (stale := stale) (vs := vs) (rest := rest) n
      hread hap (by rwa [hreadNibble, State.leased_dap]) (by rw [State.leased_draws]; exact hdraws) []
    rw [hlen, ← Nat.add_assoc, ← hn] at hfails
    exact execDapTransferBlock_fails idx hcan hconn hcount hfails hdraws
  · have hfails := blockBatch_posting_fails (d := d) (s := s.leased d.chan) (rest := rest) count.toNat hread
      (hap.trans hAp) (by rwa [hreadNibble, State.leased_dap]) (by rw [State.leased_draws, hdraws]) []
    exact execDapTransferBlock_fails idx hcan hconn hcount hfails hdraws

end Sys2Proof.Machine
end

section
/-! SUPPORT. The block at rest (R299): what each agent does with an empty slot, an empty PENDING, no bus event ahead and an
empty port, and why a quiescent state with the invariant has them all. -/

namespace Sys2Proof.Machine

/-! ## Agents without work -/

/-- An idle channel with an empty slot has nothing to step to (R121). -/
theorem channelStep_empty {s : State} {c : Chan} (hphase : (s.front c).phase = .idle) (hrx : (s.front c).rx = none) :
    channelStep c s = .next s := by
  simp [channelStep, hphase, hrx]

/-- No command runs in the step of an idle channel with an empty slot, so nothing is held back. -/
theorem pacedStep_empty {s : State} {c : Chan} (hold : Nat) (hphase : (s.front c).phase = .idle)
    (hrx : (s.front c).rx = none) : pacedStep hold c s = .next s := by
  rw [pacedStep, channelStep_empty hphase hrx, andThen_next_left, State.holdBack_other (.inl (by rw [hphase]; rfl))]

/-- Channels that each rest in `s` leave `s` as it is, in whatever order they step. -/
theorem stepsInOrder_rests {hold : Nat} {s : State} {order : List Chan}
    (hrests : ∀ c ∈ order, pacedStep hold c s = .next s) : stepsInOrder hold order s = .next s := by
  induction order with
  | nil => rfl
  | cons c order ih =>
    obtain ⟨hc, hrest⟩ := List.forall_mem_cons.mp hrests
    rw [stepsInOrder_cons hc, ih hrest]

/-- With an empty port the SWD engine has no packet to run (log entry 9). -/
theorem engineStep_empty {s : State} (hport : s.swdPort = none) : engineStep s = .next s := by
  rw [engineStep, hport]

/-! ## Quiescence under the invariant -/

/-- A quiescent channel has taken no frame (R21, R22). -/
theorem State.Inv.idle_of_quiescent {s : State} (h : s.Inv) (hquiet : s.Quiescent) (c : Chan) :
    (s.front c).phase = .idle :=
  (h.busyIff c).mp (hquiet.1 c).2

/-- No bus event lies ahead in a quiescent state: it would be one of a command that has run (log entry 7). -/
theorem State.Inv.ahead_of_quiescent {s : State} (h : s.Inv) (hquiet : s.Quiescent) : s.ahead = [] := by
  by_contra hahead
  obtain ⟨c, -, hran⟩ := h.aheadRuns hahead
  rw [h.idle_of_quiescent hquiet c] at hran
  cases hran

/-- Without a frame to hold it for, the lease in service is held for an open transaction alone (R130). -/
theorem State.Inv.owner_of_quiescent {s : State} (h : s.Inv) (hquiet : s.Quiescent) (hboot : s.bootReq = false) :
    s.owner = none ∨ (s.owner = some .ch0 ∧ s.brTxn = true) := by
  cases howner : s.owner with
  | none => exact .inl rfl
  | some c =>
    obtain hbooted | hholds | ⟨rfl, htxn⟩ := h.ownerWhy c howner
    · rw [hboot] at hbooted
      cases hbooted
    · rw [h.idle_of_quiescent hquiet c] at hholds
      cases hholds
    · exact .inr ⟨rfl, htxn⟩

/-- Settles O24: no channel has a frame to step with, no bus event lies ahead, nobody waits, and the port is empty. -/
theorem quiescentRests : Obligations.QuiescentRests := by
  intro s h hquiet hboot
  refine ⟨fun hold cs => ?cycle, fun n => ?bus, fun c => ?timeout, ?engine, h.owner_of_quiescent hquiet hboot⟩
  case cycle =>
    rw [runCycle_eq]
    exact stepsInOrder_rests fun c _ => pacedStep_empty hold (h.idle_of_quiescent hquiet c) (hquiet.1 c).1
  case bus => simp [applyMove, playEvents_nil (h.ahead_of_quiescent hquiet)]
  case timeout =>
    have hnot : c ∉ s.pending := by simp [hquiet.2]
    simp [applyMove, State.timeout_other hnot]
  case engine => simp [applyMove, engineStep_empty h.portEmpty]

end Sys2Proof.Machine
end

section
/-! SUPPORT. The rate table of R329: the divider that RateSel selects is known from the dividers below it (R150). -/

namespace Sys2Proof.Machine

theorem dividerValue_injective : Function.Injective dividerValue := by
  have hlisted : ∀ d ∈ dividers, ∀ e ∈ dividers, dividerValue d = dividerValue e → d = e := by decide
  exact fun d e => hlisted d (mem_dividers d) e (mem_dividers e)

/-- 256 is the greatest divider, so every other one stands below it. -/
theorem dividerValue_lt_d256 {d : Divider} (hd : d ≠ .d256) : dividerValue d < dividerValue .d256 := by
  have hlisted : ∀ d ∈ dividers, d ≠ .d256 → dividerValue d < dividerValue .d256 := by decide
  exact hlisted d (mem_dividers d) hd

/-- RateSel selects the divider below which no other fits the rate, if it fits itself or is 256 (R150). -/
theorem rateSel_eq {p : Params} {hz : Nat} {d : Divider} (hd : p.fRef ≤ hz * dividerValue d ∨ d = .d256)
    (hbelow : ∀ e ∈ dividers, dividerValue e < dividerValue d → ¬ p.fRef ≤ hz * dividerValue e) :
    rateSel p hz = d := by
  by_cases hfits : p.fRef ≤ hz * dividerValue d
  · obtain ⟨hsel, hle⟩ := rateSel_of_fits hfits
    have hnot : ¬ dividerValue (rateSel p hz) < dividerValue d := fun hlt => hbelow _ (mem_dividers _) hlt hsel
    exact dividerValue_injective (hle.antisymm (not_lt.mp hnot))
  · obtain rfl := hd.resolve_left hfits
    refine rateSel_of_none fun e => ?_
    by_cases he : e = .d256
    · rwa [he]
    · exact hbelow e (mem_dividers e) (dividerValue_lt_d256 he)

/-- Settles O8: in each row the divider fits the rate or is 256, and no divider below it fits. -/
theorem rateExamples : Obligations.RateExamples := by
  intro x hx p hp
  have hrow : (48000000 ≤ x.1 * dividerValue x.2.1 ∨ x.2.1 = .d256) ∧
      (∀ e ∈ dividers, dividerValue e < dividerValue x.2.1 → ¬ 48000000 ≤ x.1 * dividerValue e) ∧
      48000000 / dividerValue x.2.1 = x.2.2 := by
    revert x
    decide
  rw [← hp] at hrow
  obtain ⟨hfits, hbelow, hrate⟩ := hrow
  exact ⟨rateSel_eq hfits hbelow, hrate⟩

end Sys2Proof.Machine
end

section
/-! SUPPORT. The invariant right after reset (R49, R310): what every channel of the reset state is, and why the
invariant holds of that state under every choice of the parameters. -/

namespace Sys2Proof.Machine

@[simp] theorem State.init_front (p : Params) (c : Chan) : (State.init p).front c = Front.reset := by cases c <;> rfl

@[simp] theorem State.init_dap (p : Params) (d : DapCh) : (State.init p).dap d = DapRegs.reset p := by cases d <;> rfl

@[simp] theorem State.init_pending (p : Params) : (State.init p).pending = [] := rfl

/-- The invariant holds right after reset under any parameters (R7, R310): the lease is free, every front end is idle
and empty, and the log is the one EvReset. -/
theorem State.init_inv (p : Params) : (State.init p).Inv where
  pendingNodup := List.nodup_nil
  ownerNotPending := nofun
  freeNoneWaiting _ := rfl
  waitingIff c := by simp [Front.reset]
  busyIff c := by simp [Front.reset]
  busyFrame c := by simp [Front.reset]
  detachedEmpty c := by simp [Front.reset]
  waiterWants c := by simp [Front.reset]
  holderOwns c := by simp [Front.reset, Phase.holdsLease]
  txnOwns := nofun
  txnNoFrameLease := nofun
  ownerWhy := nofun
  txnPins := nofun
  csIdle _ := rfl
  swdDriven := nofun
  dapRest d _ := by simp [DapRegs.reset]
  turnaroundRange d := by simp [DapRegs.reset]
  portEmpty := rfl
  logLeased := rfl
  aheadRuns hahead := absurd rfl hahead
  aheadLeased := nofun
  waitsPlaced := nofun

/-- Settles O10, under the suggested parameters (log entry 1). -/
theorem resetInv : Obligations.ResetInv :=
  State.init_inv Params.suggested

end Sys2Proof.Machine
end
